-- ==== Sys2Proof/Word.lean ====
section
/-! DEFINITION. The word types of the block (spec R10, R11: every value is unsigned, its width stated in its name).
Arithmetic on them is `BitVec`'s own: `&&&`, `|||`, `^^^`, `~~~`, `+`, `-` modulo the width, logical shifts. -/

namespace Sys2Proof

/-- A byte of a frame (u8). -/
abbrev Byte := BitVec 8

/-- A register or ROM address: "an unsigned 6-bit value (0–0x3F)" (R30, R32, R62). -/
abbrev Addr := BitVec 6

/-- The contents of one device register (R34). -/
abbrev U24 := BitVec 24

/-- A register value, mask or argument inside the block (R34, R62). -/
abbrev U32 := BitVec 32

/-- A clock value in milliseconds (R116). -/
abbrev U64 := BitVec 64

end Sys2Proof
end

