-- ==== Sys2Proof/Syntax.lean ====
section
/-! DEFINITION. The whole of the block's instruction set: one constructor of `Instr` for each row of spec/opcode_table.json
(R60, R61 for the command port, R52–R57 for the frames), and what can stand at the block's ports before it is decoded. -/

namespace Sys2Proof

/-- The four frame kinds of R54. -/
inductive Op where
  | write
  | read
  | readAndClear
  | deviceInfo
deriving DecidableEq, Repr

/-- The byte count of a ROM transaction, FOUR or TWO (R9, R58). -/
inductive Shape where
  | four
  | two
deriving DecidableEq, Repr

/-- The block's instructions: the sixteen commands (R60), the reserved command codes (R61), and the frame forms the block
emits (R52, R56) and receives (R53, R57). -/
inductive Instr where
  | write (reg : Addr) (data : U32)
  | read (reg : Addr)
  | modify (reg : Addr) (mask data : U32)
  | rac (reg : Addr) (mask : U32)
  | racList (list : List (Addr × U32))
  | readRom (addr : Addr)
  | isWritable (reg : Addr)
  | getGsb
  | wdCheck
  | wdRefresh
  | wdSetInterval (arg : U32)
  | wdEnable
  | wdDisable
  | modeSet (arg : U32)
  | maintain (arg : U32)
  | readAvg (reg : Addr) (mask arg : U32)
  | reserved (code : BitVec 5)
  | fWrite (addr : Addr) (payload : U24)
  | fRead (addr : Addr) (payload : U24)
  | fReadAndClear (addr : Addr) (payload : U24)
  | fDeviceInfo (addr : Addr) (payload : U24)
  | fDeviceInfo2 (addr : Addr) (dummy : Byte)
  | fResponse4 (gsb : Byte) (data : U24)
  | fResponse2 (gsb data : Byte)
deriving DecidableEq, Repr

/-- The operands presented beside a command code (R62); a command reads only those its row lists. DESIGN CHOICE: the list has any
finite length (log 21). -/
structure Operands where
  reg : Addr := 0
  mask : U32 := 0
  data : U32 := 0
  arg : U32 := 0
  list : List (Addr × U32) := []
deriving DecidableEq, Repr, Inhabited

/-- What stands at a port before it is decoded: a command code with its operands at the command port (R60, R62), a request
frame on its way to the device (R52, R56), or a response frame coming from it (R53, R57); frame bytes in wire order (R10). -/
inductive Presented where
  | command (code : Byte) (ops : Operands)
  | request (bytes : List Byte)
  | response (bytes : List Byte)
deriving DecidableEq, Repr

/-- Why something presented at a port is no instruction of the block. -/
inductive DecodeError where
  /-- A command code of more than five bits (R60: CMD is 5 bits; R136: an operand wider than its field is no host move). -/
  | codeTooWide (code : Byte)
  /-- A request of neither 4 nor 2 bytes (R58). -/
  | requestLength (n : Nat)
  /-- A 2-byte request whose OP is not 11 (R56: the TWO shape is for ROM reads only). -/
  | twoByteNotRom (header : Byte)
  /-- A ROM request, or a 2-byte response, of a length that CFG.ROM_SHAPE does not give it (R58, R67). -/
  | romLength (n : Nat)
  /-- A READ or ROM request whose dummy bits are not zero: no frame the block emits (R55, R56). -/
  | nonzeroDummy (header : Byte)
  /-- A response of neither 4 nor 2 bytes (R58). -/
  | responseLength (n : Nat)
deriving DecidableEq, Repr

/-- The pseudo-commands of R65; `Pseudo.expand` (Machine/Operands.lean) gives the command each stands for. -/
inductive Pseudo where
  | setField (reg : Addr) (mask : U32) (pos : BitVec 5) (value : U32)
  | clearFlag (reg : Addr) (mask : U32)
  | clearGroup (list : List (Addr × U32))
  | delay (ms : U32)
  | toggleWd
deriving DecidableEq, Repr

end Sys2Proof
end

