-- ==== Sys2Proof/Machine/Codec.lean ====
section
/-! DEFINITION. The frame codec: "pure, stateless byte-packing" with "No error conditions" (R68–R77), and the byte and bit order
of a frame (R35–R37). -/

namespace Sys2Proof.Machine

/-- OpBits (R68, R54). -/
def opBits : Op → Byte
  | .write => 0x00
  | .read => 0x40
  | .readAndClear => 0x80
  | .deviceInfo => 0xC0

/-- The frame kind a header byte names by its bits 7:6 alone (R54, R67). -/
def opOf (header : Byte) : Op :=
  if header.extractLsb' 6 2 = 0 then .write
  else if header.extractLsb' 6 2 = 1 then .read
  else if header.extractLsb' 6 2 = 2 then .readAndClear
  else .deviceInfo

/-- encodeHeader (R69): `(a & 0x3F) | OpBits(op)`, for any address value the caller has. -/
def encodeHeader (op : Op) (a : U32) : Byte :=
  (a &&& 0x3F).setWidth 8 ||| opBits op

/-- packPayload (R70): bits 23..16, 15..8, 7..0 in that order; bits 31:24 are discarded. -/
def packPayload (v : U32) : Byte × Byte × Byte :=
  (v.extractLsb' 16 8, v.extractLsb' 8 8, v.extractLsb' 0 8)

/-- unpackPayload (R71): `zext_32({b0, b1, b2})`. -/
def unpackPayload (b : Byte × Byte × Byte) : U32 :=
  (b.1 ++ b.2.1 ++ b.2.2).setWidth 32

/-- BuildFrame4 (R72). -/
def buildFrame4 (op : Op) (a v : U32) : List Byte :=
  [encodeHeader op a, (packPayload v).1, (packPayload v).2.1, (packPayload v).2.2]

/-- BuildRom2 (R73). -/
def buildRom2 (a : U32) : List Byte :=
  [encodeHeader .deviceInfo a, 0x00]

/-- ParseResponse4 (R74). -/
def parseResponse4 (b0 b1 b2 b3 : Byte) : Byte × U32 :=
  (b0, unpackPayload (b1, b2, b3))

/-- ParseRom2 (R75). -/
def parseRom2 (b0 b1 : Byte) : Byte × Byte :=
  (b0, b1)

/-- The length in bytes of an exchange, fixed by the configuration and the opcode before it starts (R58). -/
def exchangeLength (shape : Shape) (op : Op) : Nat :=
  if op = .deviceInfo ∧ shape = .two then 2 else 4

/-- The request frame of a transaction (R78, first lines): BuildRom2 for a ROM read in the TWO shape, BuildFrame4 otherwise. -/
def requestFrame (shape : Shape) (op : Op) (a : Addr) (v : U32) : List Byte :=
  if op = .deviceInfo ∧ shape = .two then buildRom2 (a.setWidth 32) else buildFrame4 op (a.setWidth 32) v

/-- The frame word `{B[0], B[1], B[2], B[3]}`, or `{B[0], B[1]}` in the TWO shape: the big-endian reading of the bytes (R36). -/
def frameWord (bytes : List Byte) : Nat :=
  bytes.foldl (fun w b => 256 * w + b.toNat) 0

/-- The bits of one byte as they go over the wire, most significant first (R37). -/
def byteBits (b : Byte) : List Bool :=
  [b.getLsbD 7, b.getLsbD 6, b.getLsbD 5, b.getLsbD 4, b.getLsbD 3, b.getLsbD 2, b.getLsbD 1, b.getLsbD 0]

/-- The bits of a frame as they go over the wire (R36, R37). -/
def wireBits (bytes : List Byte) : List Bool :=
  bytes.flatMap byteBits

end Sys2Proof.Machine
end

