-- ==== Sys2Proof/Config.lean ====
section
/-! DEFINITION. What one build of the block fixes (R9, R21: the configuration registers CFG), the outcomes the device can give
an exchange (R40, R43, R44), and the free values: opaque constants of which nothing can be proved. -/

namespace Sys2Proof

/-- CS_MODE of R9: who drives device-select. -/
inductive CsMode where
  | auto
  | manual
deriving DecidableEq, Repr

/-- An SPI mode: clock polarity and phase (R9, R41). Its values are OPEN (D27). DESIGN CHOICE: two bits (log 14). -/
structure SpiMode where
  cpol : Bool
  cpha : Bool
deriving DecidableEq, Repr

/-- ROM_DATA_BYTE_4 of R9: which response byte carries ROM data in the FOUR shape, rx[1] or rx[3] (R84). -/
inductive RomByte where
  | one
  | three
deriving DecidableEq, Repr

/-- WD_TRIG_VARIANT of R9: 0 or 1 (R22). -/
inductive Variant where
  | v0
  | v1
deriving DecidableEq, Repr

/-- A table of one u32 for each of the four interval codes (R8 WD_LEVELS). -/
structure Table4 where
  c0 : U32
  c1 : U32
  c2 : U32
  c3 : U32
deriving DecidableEq, Repr

/-- CFG, the configuration registers (R9, R21). DESIGN CHOICE: SPI_CLOCK_HZ is a count, no width being given (log 14). -/
structure Cfg where
  csMode : CsMode
  spiModeAuto : SpiMode
  spiModeManual : SpiMode
  spiClockHz : Nat
  romShape : Shape := .four
  romDataByte4 : RomByte := .three
  enforceWritable : Bool := true
  wdTrigVariant : Variant
  wdTrigReg0 : Addr
  wdTrigReg1 : Addr
  wdTrigMask0 : U32
  wdTrigMask1 : U32
  wdIntervalMs : Table4
  wdDefaultCode : BitVec 2
  wdSelReg : Addr
  wdSelMask : U32
  wdSelPos : BitVec 5
  wdCfgEnMask : U32
  modeReg : Addr
  modeMask : U32
  modeValActive : U32
  modeValStandby1 : U32
  modeValStandby2 : U32
  wdDeviceTimeoutMs : Table4
  wdDeviceTimeoutDefaultMs : U32
deriving DecidableEq, Repr

/-- The device's answer to one exchange: Ok with four response bytes in wire order (the TWO shape uses the first two), Fail,
or no answer at all (R40, R43, R44). -/
inductive Answer where
  | ok (b0 b1 b2 b3 : Byte)
  | fail
  | never
deriving DecidableEq, Repr, Inhabited

namespace Config

/-- FREE VALUE (log 3): the device's answer where nothing else gives one. R43: "any bytes"; R44: it "may fail or never
complete". -/
opaque freeAnswer : Nat → Answer

/-- FREE VALUE (log 4): a clock sample where none is scripted. R116: "may advance by any amount". -/
opaque freeSample : Nat → U64

/-- FREE VALUE (log 5): GSB at reset. R17: "a draw at reset that no rule reads while GSB_VALID = 0". -/
opaque freeByte : Nat → Byte

end Config

end Sys2Proof
end

