-- ==== Sys2Proof/Machine/Configure.lean ====
section
/-! DEFINITION. The configuration registers in use: the writability predicate (R33), the derived values (R22), the checks a
configuration must pass (R21, R122), the example configuration of spec/95_test_vectors.md, and the board's own configuration. -/

namespace Sys2Proof.Machine

/-- Writable (R33): the control registers and the configuration register. -/
def writable (a : Addr) : Bool :=
  (decide (0x01 ≤ a.toNat) && decide (a.toNat ≤ 0x16)) || a == 0x3F

/-- The configuration register's address, CONFIG_ADDR (R8). -/
def configAddr : Addr := 0x3F

/-- TRIG_REG (R22). -/
def trigReg (c : Cfg) : Addr :=
  match c.wdTrigVariant with
  | .v0 => c.wdTrigReg0
  | .v1 => c.wdTrigReg1

/-- TRIG_MASK (R22). -/
def trigMask (c : Cfg) : U32 :=
  match c.wdTrigVariant with
  | .v0 => c.wdTrigMask0
  | .v1 => c.wdTrigMask1

/-- SPI_MODE (R22). -/
def spiMode (c : Cfg) : SpiMode :=
  match c.csMode with
  | .auto => c.spiModeAuto
  | .manual => c.spiModeManual

/-- The entry of a table for an interval code. -/
def tableGet (t : Table4) (code : BitVec 2) : U32 :=
  match code.toNat with
  | 0 => t.c0
  | 1 => t.c1
  | 2 => t.c2
  | _ => t.c3

/-- Whether exactly one bit of a mask is set, in bits 23:0 (R122, check 2). -/
def singleBit (mask : U32) : Bool :=
  (List.range 24).any fun i => mask == 1#32 <<< i

/-- Whether bits 31:24 of a value are zero (R122). -/
def topByteClear (v : U32) : Bool :=
  v.extractLsb' 24 8 == 0

/-- Whether a value lies inside a mask (R122). -/
def inside (v mask : U32) : Bool :=
  v &&& ~~~mask == 0

/-- R122, check 2: the trigger register is writable and the trigger mask is a single bit. -/
def triggerOk (c : Cfg) : Bool :=
  writable (trigReg c) && singleBit (trigMask c)

/-- R122, check 3: the interval selector field is in a writable register and holds the 2-bit code. -/
def selectorOk (c : Cfg) : Bool :=
  writable c.wdSelReg && decide (c.wdSelPos.toNat ≤ 22) && inside (3#32 <<< c.wdSelPos.toNat) c.wdSelMask
    && topByteClear c.wdSelMask

/-- R122, check 4: the enable mask is nonzero and inside a register. -/
def enableOk (c : Cfg) : Bool :=
  c.wdCfgEnMask != 0 && topByteClear c.wdCfgEnMask

/-- R122, check 5: the mode field is in a writable register and holds its three values. -/
def modeOk (c : Cfg) : Bool :=
  writable c.modeReg && topByteClear c.modeMask && inside c.modeValActive c.modeMask
    && inside c.modeValStandby1 c.modeMask && inside c.modeValStandby2 c.modeMask

/-- R21: "masks and values u32 with bits 31:24 zero", those of the variant that is not selected too. -/
def widthsOk (c : Cfg) : Bool :=
  topByteClear c.wdTrigMask0 && topByteClear c.wdTrigMask1 && topByteClear c.wdSelMask && topByteClear c.wdCfgEnMask
    && topByteClear c.modeMask && topByteClear c.modeValActive && topByteClear c.modeValStandby1
    && topByteClear c.modeValStandby2

/-- What a configuration must pass: the checks of R122, check 1 of which holds by the types of `Cfg`, and the field widths of R21 that
the types do not hold (log 19). -/
def cfgOk (c : Cfg) : Bool :=
  triggerOk c && selectorOk c && enableOk c && modeOk c && widthsOk c

/-- The example configuration EX of spec/95_test_vectors.md ("a test configuration chosen for these vectors; not the real
device's values"). EX leaves the SPI modes, the clock rate and the device timeouts open; zeros stand there. -/
def exampleCfg : Cfg where
  csMode := .manual
  spiModeAuto := ⟨false, false⟩
  spiModeManual := ⟨false, false⟩
  spiClockHz := 0
  romShape := .four
  romDataByte4 := .three
  enforceWritable := true
  wdTrigVariant := .v0
  wdTrigReg0 := 0x02
  wdTrigReg1 := 0x03
  wdTrigMask0 := 0x000001
  wdTrigMask1 := 0x000002
  wdIntervalMs := ⟨10, 50, 100, 200⟩
  wdDefaultCode := 1
  wdSelReg := 0x01
  wdSelMask := 0x000006
  wdSelPos := 1
  wdCfgEnMask := 0x000001
  modeReg := 0x01
  modeMask := 0x000018
  modeValActive := 0x000000
  modeValStandby1 := 0x000008
  modeValStandby2 := 0x000010
  wdDeviceTimeoutMs := ⟨0, 0, 0, 0⟩
  wdDeviceTimeoutDefaultMs := 0

end Sys2Proof.Machine

namespace Sys2Proof

/-- A configuration with the proof that it passes the checks of R21 and R122. The default only shows that there is one. -/
structure CheckedCfg where
  cfg : Cfg := Machine.exampleCfg
  ok : Machine.cfgOk cfg = true := by decide
deriving Inhabited

/-- The OPEN parameters of R9 as one argument "no proof may fix" (spec/92_eei_decisions.md): an opaque constant of which only
the checks of R21 and R122 are known (log 6). -/
opaque Config.board : CheckedCfg

end Sys2Proof
end

