-- ==== Sys2Proof/Machine/State.lean ====
section
/-! DEFINITION. The block's architectural state (R15–R29), the agents outside it as plain data (R4, R136), the reasons a step can
stop, and the state after reset (R121, R137). -/

namespace Sys2Proof

namespace Machine

/-- RES.status (R105). -/
inductive Status where
  | ok
  | notWritable
  | invalidSelector
  | transportFault
  | faulted
deriving DecidableEq, Repr

/-- RES, the outcome of the last completed command (R25). -/
structure Res where
  status : Status
  data : U32
  flag : Bool
deriving DecidableEq, Repr

/-- CUR, the command in progress and the sequencer's locals (R24). `step` is the position of R16: how many environment
primitives (exchange, clock sample, sleep; R13) have begun since the command was accepted (log 1). -/
structure Cur where
  code : BitVec 5
  ops : Operands
  busy : Bool
  step : Nat
  tmp : U32
  sum : U32
  i : U32
  now : U64
deriving DecidableEq, Repr, Inhabited

/-- What came back in one exchange: response bytes, a failure, or nothing (R40, R44). -/
inductive Reply where
  | ok (rx : List Byte)
  | fail
  | never
deriving DecidableEq, Repr

/-- What happened at the ports (model's own record, log 11): device-select asserted, a frame exchanged in an SPI mode,
device-select deasserted (R41); a response received by itself (log 10); a clock sample; a Sleep1; a result written; a reset. -/
inductive Event where
  | select
  | frame (mode : SpiMode) (tx : List Byte) (reply : Reply)
  | deselect
  | response (rx : List Byte)
  | sample (now : U64)
  | sleep
  | result (res : Res)
  | reset
deriving DecidableEq, Repr

/-- The reference device's memory: (address, byte) cells, addresses strictly rising, no cell holding the 0x00 that an unlisted
address reads as (log 15). Register `a` is the bytes 3a, 3a+1, 3a+2, most significant first; ROM byte `a` is byte 192 + a. -/
abbrev Memory := List Host.Cell

/-- The reference device of R51, a test fixture: its registers and ROM, and the GSB bytes of its coming answers. -/
structure RefDevice where
  mem : Memory
  gsbs : List Byte
deriving DecidableEq, Repr

/-- The device: an oracle (R43), or "for tests only" the reference device (R51). -/
inductive Device where
  | oracle
  | reference (d : RefDevice)
deriving DecidableEq, Repr

/-- A move of the host (R136): put something at a port, or reset the block with a configuration argument. -/
inductive Move where
  | present (p : Presented)
  | reset (cfg : Cfg)
deriving DecidableEq, Repr

/-- The agents outside the block (R4), as the plain data the steps read, and the record of the ports. -/
structure Env where
  /-- The host's coming moves (R136); empty: the host is idle. -/
  pending : List Move
  /-- After how many more environment primitives the host's reset strikes (R121, R136; log 8). -/
  abandonAfter : Option Nat
  /-- What each coming reset makes of `abandonAfter`, in order: how many environment primitives after it the reset that follows it
  strikes inside a command, if it does; past the list's end none does (log 8). -/
  resetStrikes : List (Option Nat)
  /-- The device's answers to the coming exchanges (R43, R44). -/
  answers : List Answer
  /-- What answers when `answers` is empty. -/
  device : Device
  /-- The coming clock samples (R116). -/
  samples : List U64
  /-- The last clock sample (R116). -/
  clock : U64
  /-- How many free values have been drawn. -/
  drawn : Nat
  /-- What happened at the ports, oldest first. -/
  trace : List Event
deriving DecidableEq, Repr

/-- The architectural state (R15: "exactly the elements of rules R17–R26"), with `rxData`, Xfer's last return value (log 11), and
the agents outside. -/
structure State where
  gsb : Byte
  gsbValid : Bool
  wdRun : Bool
  wdInterval : U32
  wdLast : U64
  faulted : Bool
  cfg : Cfg
  cur : Cur
  res : Res
  cs : Bool
  rxData : U32
  env : Env
deriving DecidableEq, Repr

/-- Why the machine has no next state. -/
inductive Fault where
  /-- Raised by `step` when CUR.busy = 1 and no host reset is pending: the sequencer is stuck in a hung exchange, or its command
  was struck by a reset that has not been given yet (R109, R135: "stuck, not an end"). Safe. -/
  | stuck
deriving DecidableEq, Repr

/-- Why the model has no meaning for what was put to it. -/
inductive Refusal where
  /-- Raised by no arm: every instruction has a meaning. Safe. -/
  | notModelled (mnemonic : String)
  /-- Raised by `step` on a reset with a configuration that fails R122 or the widths of R21: "refused (the model has no run for
  it)" (log 19). Safe. -/
  | configRefused
  /-- Raised by `step` on something that is no instruction of the block under its configuration: R136, "not host moves — they have
  no step in the model", and what R55–R59 say is no frame of the block (log 19). Safe. -/
  | notPresentable (e : DecodeError)
deriving DecidableEq, Repr

end Machine

/-- FREE VALUE (log 5): CUR's fields other than busy at reset. R24: "unspecified and unread while busy = 0". -/
opaque Config.freeCur : Nat → Machine.Cur

namespace Machine

/-- The state reset leaves (R121, R29): from the configuration argument, the draws for GSB and CUR's unspecified fields, the
clock sampled once, and the agents outside. -/
def State.afterReset (cfg : Cfg) (gsb : Byte) (cur : Cur) (now : U64) (env : Env) : State where
  gsb := gsb
  gsbValid := false
  wdRun := true
  wdInterval := tableGet cfg.wdIntervalMs cfg.wdDefaultCode
  wdLast := now
  faulted := false
  cfg := cfg
  cur := { cur with busy := false }
  res := ⟨.ok, 0, false⟩
  cs := false
  rxData := 0
  env := env

/-- Nothing scripted: no move pending, the device an oracle, the clock at its reset sample, free value 0 drawn. -/
def Env.quiet (now : U64) : Env where
  pending := []
  abandonAfter := none
  resetStrikes := []
  answers := []
  device := .oracle
  samples := []
  clock := now
  drawn := 1
  trace := []

/-- The machine right after reset (R121), in the board's configuration. -/
def State.reset : State :=
  State.afterReset Config.board.cfg (Config.freeByte 0) (Config.freeCur 0) (Config.freeSample 0)
    (Env.quiet (Config.freeSample 0))

end Machine

end Sys2Proof
end

