-- ==== Sys2Proof/Machine/Memory.lean ====
section
/-! DEFINITION. The reference device's memory: reading and writing one byte of the canonical cell list, and the 24-bit registers
and ROM bytes laid out in it (R30, R32, R51; log 15). -/

namespace Sys2Proof.Machine

/-- What an address that is not listed reads as: "Registers not named hold 0" (spec/95_test_vectors.md). -/
def unlistedByte : Byte := 0x00

/-- One byte of memory. -/
def Memory.read : Memory → Nat → Byte
  | [], _ => unlistedByte
  | (k, v) :: rest, a => if k = a then v else Memory.read rest a

/-- A cell in front of a list, left out when it holds what an unlisted address reads as. -/
def consCell (a : Nat) (b : Byte) (rest : Memory) : Memory :=
  if b = unlistedByte then rest else (a, b) :: rest

/-- Write one byte, keeping the canonical form. -/
def Memory.write : Memory → Nat → Byte → Memory
  | [], a, b => consCell a b []
  | (k, v) :: rest, a, b =>
    if a < k then consCell a b ((k, v) :: rest)
    else if a = k then consCell a b rest
    else (k, v) :: Memory.write rest a b

/-- The canonical form from an address up: addresses rise strictly and stay below 256, no cell holds the unlisted value. -/
def wfFrom : Nat → Memory → Bool
  | _, [] => true
  | lo, (k, v) :: rest => decide (lo ≤ k) && decide (k < 256) && v != unlistedByte && wfFrom (k + 1) rest

/-- The canonical form of memory. -/
def Memory.wf (m : Memory) : Bool :=
  wfFrom 0 m

/-- The byte address of a register's most significant byte. -/
def regBase (a : Addr) : Nat :=
  3 * a.toNat

/-- The byte address of a ROM byte. -/
def romBase (a : Addr) : Nat :=
  192 + a.toNat

/-- A register of the reference device, its bytes most significant first (R35, R51). -/
def regRead (m : Memory) (a : Addr) : U24 :=
  m.read (regBase a) ++ m.read (regBase a + 1) ++ m.read (regBase a + 2)

/-- Set a register of the reference device (R51). -/
def regWrite (m : Memory) (a : Addr) (v : U24) : Memory :=
  ((m.write (regBase a) (v.extractLsb' 16 8)).write (regBase a + 1) (v.extractLsb' 8 8)).write
    (regBase a + 2) (v.extractLsb' 0 8)

/-- A ROM byte of the reference device (R51). -/
def romRead (m : Memory) (a : Addr) : Byte :=
  m.read (romBase a)

/-- The canonical form of what the device holds. -/
def Device.wf : Device → Bool
  | .oracle => true
  | .reference d => d.mem.wf

end Sys2Proof.Machine
end

