-- ==== Sys2Proof/Machine/Device.lean ====
section
/-! DEFINITION. The reference device of R51: "test fixture only; not a statement about the real device". It writes every address,
writable or not, and never fails. -/

namespace Sys2Proof.Machine

/-- The GSB byte of the coming answer: "0x00 unless a test says otherwise" (R51). -/
def nextGsb (d : RefDevice) : Byte :=
  d.gsbs.headD 0x00

/-- The answer whose payload is a register's contents. -/
def answerReg (d : RefDevice) (v : U24) : Answer :=
  .ok (nextGsb d) (v.extractLsb' 16 8) (v.extractLsb' 8 8) (v.extractLsb' 0 8)

/-- The answer to a 4-byte DEVICE_INFO frame: the ROM byte in rx[3] or rx[1] (R51). -/
def answerRom4 (cfg : Cfg) (d : RefDevice) (a : Addr) : Answer :=
  match cfg.romDataByte4 with
  | .three => .ok (nextGsb d) 0x00 0x00 (romRead d.mem a)
  | .one => .ok (nextGsb d) (romRead d.mem a) 0x00 0x00

/-- The answer to a request, and the memory it leaves (R51). A request of neither length is none the block builds. -/
def refReply (cfg : Cfg) (d : RefDevice) : List Byte → Answer × Memory
  | [h, b1, b2, b3] =>
    match opOf h with
    | .write => (answerReg d (regRead d.mem (h.setWidth 6)), regWrite d.mem (h.setWidth 6) (b1 ++ b2 ++ b3))
    | .read => (answerReg d (regRead d.mem (h.setWidth 6)), d.mem)
    | .readAndClear =>
      (answerReg d (regRead d.mem (h.setWidth 6)),
        regWrite d.mem (h.setWidth 6) (regRead d.mem (h.setWidth 6) &&& ~~~(b1 ++ b2 ++ b3)))
    | .deviceInfo => (answerRom4 cfg d (h.setWidth 6), d.mem)
  | [h, _] => (.ok (nextGsb d) (romRead d.mem (h.setWidth 6)) 0x00 0x00, d.mem)
  | _ => (.never, d.mem)

/-- The reference device after answering a request: one GSB byte is used up. -/
def refAfter (cfg : Cfg) (d : RefDevice) (tx : List Byte) : RefDevice where
  mem := (refReply cfg d tx).2
  gsbs := d.gsbs.tail

end Sys2Proof.Machine
end

