-- ==== Sys2Proof/Machine/Ops.lean ====
section
/-! DEFINITION. The named operations every command is built from: updates of one piece of state, the environment primitives of R13,
the ways a command ends (R105–R112, R114), the transaction of R78 and the sequences of R81 and R87. -/

namespace Sys2Proof.Machine

/-! ### Updates of one piece of state -/

/-- Add events to the record of the ports. -/
def State.record (s : State) (es : List Event) : State :=
  { s with env := { s.env with trace := s.env.trace ++ es } }

/-- Set CUR.busy (R24). -/
def State.setBusy (s : State) (b : Bool) : State :=
  { s with cur := { s.cur with busy := b } }

/-- Set CUR.tmp (R24). -/
def State.setTmp (s : State) (v : U32) : State :=
  { s with cur := { s.cur with tmp := v } }

/-- Set CUR.sum (R24). -/
def State.setSum (s : State) (v : U32) : State :=
  { s with cur := { s.cur with sum := v } }

/-- Set CUR.i (R24). -/
def State.setI (s : State) (v : U32) : State :=
  { s with cur := { s.cur with i := v } }

/-- Set CUR.now (R24). -/
def State.setNow (s : State) (v : U64) : State :=
  { s with cur := { s.cur with now := v } }

/-- Set WD_RUN (R18). -/
def State.setRun (s : State) (b : Bool) : State :=
  { s with wdRun := b }

/-- Set WD_INTERVAL (R19). -/
def State.setInterval (s : State) (v : U32) : State :=
  { s with wdInterval := v }

/-- Set WD_LAST (R20). -/
def State.setLast (s : State) (v : U64) : State :=
  { s with wdLast := v }

/-- One more environment primitive has begun (R13, R16): CUR.step moves on. -/
def State.advance (s : State) : State :=
  { s with cur := { s.cur with step := s.cur.step + 1 } }

/-! ### The sequencer -/

/-- How a piece of a command's sequence went: it is still running with a value, or the command has no more of its own steps. -/
inductive Seq (α : Type) where
  | run (a : α) (s : State)
  | ended (s : State)

/-- Run one piece and then the next; nothing follows a piece that ended the command (R108: "no later step of the command runs"). -/
def andThen {α β : Type} (m : Seq α) (k : α → State → Seq β) : Seq β :=
  match m with
  | .run a s => k a s
  | .ended s => .ended s

/-! ### The end of a command -/

/-- Write RES and end the command (R25, R135): RES is written once, CUR.busy becomes 0. -/
def finish (status : Status) (data : U32) (flag : Bool) (s : State) : State :=
  ({ s with res := ⟨status, data, flag⟩ }.setBusy false).record [.result ⟨status, data, flag⟩]

/-- A fault that leaves no trace but RES: NotWritable (R106) and InvalidSelector (R107). -/
def raise {α : Type} (status : Status) (data : U32) (s : State) : Seq α :=
  .ended (finish status data false s)

/-- The header byte of a frame, recorded by a TransportFault (R108). -/
def headerByte (tx : List Byte) : Byte :=
  tx.headD 0

/-- TransportFault (R108): FAULTED is set, RES records the failed frame's header byte, and the command ends at that frame. -/
def transportFault {α : Type} (tx : List Byte) (s : State) : Seq α :=
  .ended (finish .transportFault ((headerByte tx).setWidth 32) false { s with faulted := true })

/-- A command under the common preamble (R111): while FAULTED it does nothing and returns FAULTED; otherwise it is busy until its
body returns (OK, data, flag) or ends it. -/
def runCommand (body : State → Seq (U32 × Bool)) (s : State) : State :=
  if s.faulted then finish .faulted 0 false s
  else
    match body (s.setBusy true) with
    | .run r s' => finish .ok r.1 r.2 s'
    | .ended s' => s'

/-! ### The environment primitives (R13) -/

/-- An environment primitive begins, unless the host's reset strikes here: then the command is abandoned where it stands, CUR.busy
still 1 (R121, R136; log 8). -/
def primitive (s : State) : Seq Unit :=
  match s.env.abandonAfter with
  | none => .run () s.advance
  | some 0 => .ended s
  | some (n + 1) => .run () ({ s with env := { s.env with abandonAfter := some n } }).advance

/-- The device's answer to a request: the scripted one, else the reference device's, else a free value (R43, R44, R51; log 3). -/
def deviceAnswer (tx : List Byte) (s : State) : Answer :=
  match s.env.answers with
  | a :: _ => a
  | [] =>
    match s.env.device with
    | .reference d => (refReply s.cfg d tx).1
    | .oracle => Config.freeAnswer s.env.drawn

/-- The state after the device has been asked: one scripted answer or one free value is used up, or the reference device has moved. -/
def askDevice (tx : List Byte) (s : State) : State :=
  match s.env.answers with
  | _ :: rest => { s with env := { s.env with answers := rest } }
  | [] =>
    match s.env.device with
    | .reference d => { s with env := { s.env with device := .reference (refAfter s.cfg d tx) } }
    | .oracle => { s with env := { s.env with drawn := s.env.drawn + 1 } }

/-- Whether the block's own CS is driven (R26, R41): only with CS_MODE = MANUAL (log 16). -/
def drivesCs (c : Cfg) : Bool :=
  c.csMode == .manual

/-- The exchange of a request that the device answered (R40, R41): one bracket around one frame; CS is 0 again after it. -/
def bracketed (tx : List Byte) (reply : Reply) (s : State) : State :=
  { s.record [.select, .frame (spiMode s.cfg) tx reply, .deselect] with cs := false }

/-- An exchange that never returns (R44, R109): device-select stays asserted, the sequencer has no further step, CUR.busy stays 1. -/
def hung (tx : List Byte) (s : State) : State :=
  { (s.record [.select, .frame (spiMode s.cfg) tx .never]).setBusy true with cs := drivesCs s.cfg }

/-- The receive half of a transaction (R17, R78): cache byte 0 as the status, hand the payload to the sequencer. -/
def receive (gsb : Byte) (data : U32) (s : State) : State :=
  { s with gsb := gsb, gsbValid := true, rxData := data }

/-- What a response of four bytes hands to the sequencer, by the length of the exchange (R74, R75, R78). -/
def parseResponse (tx : List Byte) (b0 b1 b2 b3 : Byte) : Byte × U32 :=
  if tx.length = 2 then ((parseRom2 b0 b1).1, (parseRom2 b0 b1).2.setWidth 32) else parseResponse4 b0 b1 b2 b3

/-- The response bytes of an exchange as long as its request (R40). -/
def responseBytes (tx : List Byte) (b0 b1 b2 b3 : Byte) : List Byte :=
  if tx.length = 2 then [b0, b1] else [b0, b1, b2, b3]

/-- One exchange of a request frame and the caching of its response (R78 from `Exchange(tx)` on). -/
def transact (tx : List Byte) (s : State) : Seq U32 :=
  andThen (primitive s) fun _ s =>
    match deviceAnswer tx s with
    | .ok b0 b1 b2 b3 =>
      .run (parseResponse tx b0 b1 b2 b3).2
        (receive (parseResponse tx b0 b1 b2 b3).1 (parseResponse tx b0 b1 b2 b3).2
          (bracketed tx (.ok (responseBytes tx b0 b1 b2 b3)) (askDevice tx s)))
    | .fail => transportFault tx (bracketed tx .fail (askDevice tx s))
    | .never => .ended (hung tx (askDevice tx s))

/-- The coming clock sample: the scripted one, else a free value, but never below the last sample (R116; log 4). -/
def clockSample (s : State) : U64 :=
  match s.env.samples with
  | t :: _ => if t < s.env.clock then s.env.clock else t
  | [] => if Config.freeSample s.env.drawn < s.env.clock then s.env.clock else Config.freeSample s.env.drawn

/-- The state after the clock has been sampled. -/
def takeSample (s : State) : State :=
  match s.env.samples with
  | _ :: rest => { s with env := { s.env with samples := rest, clock := clockSample s } }
  | [] => { s with env := { s.env with drawn := s.env.drawn + 1, clock := clockSample s } }

/-- Now() (R13, R116). -/
def sampleNow (s : State) : Seq U64 :=
  andThen (primitive s) fun _ s => .run (clockSample s) ((takeSample s).record [.sample (clockSample s)])

/-- Sleep1() (R13, R95): "no state of the block changes"; it takes no modelled time (log 17). -/
def sleep1 (s : State) : Seq Unit :=
  andThen (primitive s) fun _ s => .run () (s.record [.sleep])

/-! ### Transactions and the sequences built from them -/

/-- Xfer(op, a, v) (R78): "the only place the block touches the exchange port or GSB". -/
def xfer (op : Op) (a : Addr) (v : U32) (s : State) : Seq U32 :=
  transact (requestFrame s.cfg.romShape op a v) s

/-- CheckWritable(a) (R87, R106). -/
def checkWritable (a : Addr) (s : State) : Seq Unit :=
  if s.cfg.enforceWritable && !writable a then raise .notWritable (a.setWidth 32) s else .run () s

/-- The WRITE frame behind its writability check (R79, R87). -/
def writeSeq (a : Addr) (v : U32) (s : State) : Seq U32 :=
  andThen (checkWritable a s) fun _ s => xfer .write a v s

/-- The read-modify-write frame pair: READ, `f` of the value read into CUR.tmp, WRITE "immediately after" (R81, R93). -/
def readThenWrite (a : Addr) (f : U32 → U32) (s : State) : Seq Unit :=
  andThen (xfer .read a 0 s) fun t s =>
    andThen (xfer .write a (f t) (s.setTmp (f t))) fun _ s => .run () s

/-- The merge of R81. -/
def merge (mask data t : U32) : U32 :=
  (t &&& ~~~mask) ||| (data &&& mask)

/-- MODIFY-seq(r, m, d): the body of R81. -/
def modifySeq (a : Addr) (mask data : U32) (s : State) : Seq Unit :=
  andThen (checkWritable a s) fun _ s => readThenWrite a (merge mask data) s

/-- A request frame run by itself (log 9): its transaction is the block's own, and RES is written only where that ends early; a
FAULTED block issues no frame (R115). -/
def runFrame (body : State → Seq U32) (s : State) : State :=
  if s.faulted then s
  else
    match body (s.setBusy true) with
    | .run _ s' => s'.setBusy false
    | .ended s' => s'

/-- A response received by itself (log 10): the receive half of R78; a FAULTED block receives nothing (R111, R115). -/
def runResponse (rx : List Byte) (gsb : Byte) (data : U32) (s : State) : State :=
  if s.faulted then s else (receive gsb data s).record [.response rx]

end Sys2Proof.Machine
end

