-- ==== Sys2Proof/Machine/Flags.lean ====
section
/-! DEFINITION. The one-bit results. The block has no arithmetic flags (R27); its computed bits are the expiry test (R91) and the
flags IS_WRITABLE, GET_GSB and WD_CHECK return (R27, R85, R86, R92). -/

namespace Sys2Proof.Machine

/-- Expired(now) (R91): the time since WD_LAST, modulo 2^64, against WD_INTERVAL, unsigned. -/
def expired (s : State) (now : U64) : Bool :=
  decide (s.wdInterval.setWidth 64 ≤ now - s.wdLast)

/-- What GET_GSB returns as data: GSB once valid, 0 before (R86). -/
def gsbData (s : State) : U32 :=
  if s.gsbValid then s.gsb.setWidth 32 else 0

/-- The numeric codes of RES.status (R105). -/
def statusCode : Status → Nat
  | .ok => 0
  | .notWritable => 1
  | .invalidSelector => 2
  | .transportFault => 3
  | .faulted => 4

end Sys2Proof.Machine
end

