-- ==== Sys2Proof/Machine/Operands.lean ====
section
/-! DEFINITION. Every operand form the spec gives a range or a computation of its own: interval codes, modes, bit positions (R63,
R96, R99, R101), the ROM byte of a response (R84), the READ_AVG field (R101), the refreshed trigger value (R93), and the
pseudo-commands (R65). -/

namespace Sys2Proof.Machine

/-- The largest interval code (R63: "WD_SET_INTERVAL with ARG > 3" is refused). -/
def maxIntervalCode : Nat := 3

/-- The largest mode (R63: the modes are ACTIVE = 0, STANDBY1 = 1, STANDBY2 = 2). -/
def maxMode : Nat := 2

/-- The largest bit position (R63: "READ_AVG with ARG > 31" is refused). -/
def maxBitPos : Nat := 31

/-- InvalidSelector for an operand out of its range (R63, R107): ARG is recorded in RES.data. -/
def checkRange (arg : U32) (max : Nat) (s : State) : Seq Unit :=
  if max < arg.toNat then raise .invalidSelector arg s else .run () s

/-- The interval code `ARG[1:0]` (R96). -/
def intervalCode (arg : U32) : BitVec 2 :=
  arg.setWidth 2

/-- The trigger interval of a code (R96). -/
def intervalOf (c : Cfg) (arg : U32) : U32 :=
  tableGet c.wdIntervalMs (intervalCode arg)

/-- The value of the selector field, `zext_32(c) << CFG.WD_SEL_POS` (R96). -/
def selectorValue (c : Cfg) (arg : U32) : U32 :=
  (intervalCode arg).setWidth 32 <<< c.wdSelPos.toNat

/-- CFG.MODE_VAL[m] (R99). -/
def modeValue (c : Cfg) (arg : U32) : U32 :=
  if arg = 0 then c.modeValActive else if arg = 1 then c.modeValStandby1 else c.modeValStandby2

/-- Whether a mode in range is one of the two standby modes (R99). -/
def isStandby (arg : U32) : Bool :=
  arg != 0

/-- The ROM byte of a transaction's result (R84): rx[1] in the TWO shape, rx[3] or rx[1] in the FOUR shape. -/
def romByte (c : Cfg) (d : U32) : Byte :=
  match c.romShape, c.romDataByte4 with
  | .two, _ => d.extractLsb' 0 8
  | .four, .three => d.extractLsb' 0 8
  | .four, .one => d.extractLsb' 16 8

/-- The field of a sample, `(v & MASK) >> ARG` (R101). -/
def sampleField (v mask arg : U32) : U32 :=
  (v &&& mask) >>> arg.toNat

/-- How many samples READ_AVG takes, AVG_SAMPLES (R8, R101). -/
def avgSamples : Nat := 5

/-- The average, floor division by five (R11, R101). -/
def average (sum : U32) : U32 :=
  sum / 5

/-- The trigger register's new value: "flip exactly the trigger bit" (R93). -/
def toggled (c : Cfg) (t : U32) : U32 :=
  t ^^^ trigMask c

/-- The command a pseudo-command stands for (R65). -/
def expand : Pseudo → Instr
  | .setField reg mask pos value => .modify reg mask (value <<< pos.toNat)
  | .clearFlag reg mask => .rac reg mask
  | .clearGroup list => .racList list
  | .delay ms => .maintain ms
  | .toggleWd => .wdRefresh

end Sys2Proof.Machine
end

