-- ==== Sys2Proof/Machine/Register.lean ====
section
/-! DEFINITION. The register-access commands, codes 0x00–0x07 (R79–R86), and the reserved codes (R61). -/

namespace Sys2Proof.Machine

/-- What a command answers. -/
abbrev Answered := Host.Outcome State Fault Refusal

/-- WRITE reg, data (R79). -/
def execWrite (reg : Addr) (data : U32) (s : State) : Answered :=
  .next (runCommand (fun s => andThen (writeSeq reg data s) fun _ s => .run (0, false) s) s)

/-- READ reg (R80). -/
def execRead (reg : Addr) (s : State) : Answered :=
  .next (runCommand (fun s => andThen (xfer .read reg 0 s) fun d s => .run (d, false) s) s)

/-- MODIFY reg, mask, data (R81). -/
def execModify (reg : Addr) (mask data : U32) (s : State) : Answered :=
  .next (runCommand (fun s => andThen (modifySeq reg mask data s) fun _ s => .run (0, false) s) s)

/-- RAC reg, mask (R82). -/
def execRac (reg : Addr) (mask : U32) (s : State) : Answered :=
  .next (runCommand (fun s => andThen (xfer .readAndClear reg mask s) fun d s => .run (d, false) s) s)

/-- The frames of RAC_LIST, one for each entry in list order, neither merged nor reordered (R83). -/
def racFrames : List (Addr × U32) → State → Seq Unit
  | [], s => .run () s
  | (reg, mask) :: rest, s => andThen (xfer .readAndClear reg mask s) fun _ s => racFrames rest s

/-- RAC_LIST list (R83). -/
def execRacList (list : List (Addr × U32)) (s : State) : Answered :=
  .next (runCommand (fun s => andThen (racFrames list s) fun _ s => .run (0, false) s) s)

/-- READ_ROM romaddr (R84). -/
def execReadRom (addr : Addr) (s : State) : Answered :=
  .next (runCommand (fun s =>
    andThen (xfer .deviceInfo addr 0 s) fun d s => .run ((romByte s.cfg d).setWidth 32, false) s) s)

/-- IS_WRITABLE reg (R85): no frame; executes also when FAULTED (R111). -/
def execIsWritable (reg : Addr) (s : State) : Answered :=
  .next (finish .ok 0 (writable reg) s)

/-- GET_GSB (R86): no frame; executes also when FAULTED (R111). -/
def execGetGsb (s : State) : Answered :=
  .next (finish .ok (gsbData s) s.gsbValid s)

/-- A reserved command code (R61, R107): INVALID_SELECTOR with the code in RES.data, before the FAULTED check (R112). -/
def execReserved (code : BitVec 5) (s : State) : Answered :=
  .next (finish .invalidSelector (code.setWidth 32) false s)

end Sys2Proof.Machine
end

