-- ==== Sys2Proof/Machine/Frames.lean ====
section
/-! DEFINITION. The frame forms run by themselves: the requests the block emits (R52–R56) as one transaction of R78 each, with the
checks and the length the block gives it (log 9), and the responses it receives (R53, R57) as the receive half of one (log 10). -/

namespace Sys2Proof.Machine

/-- F_WRITE (R52, R54, R55): "the block does not emit a WRITE to a non-writable address while CFG.ENFORCE_WRITABLE = true" (R59,
R87); it is then refused as WRITE is. DESIGN CHOICE (log 9). -/
def execFWrite (addr : Addr) (payload : U24) (s : State) : Answered :=
  .next (runFrame (writeSeq addr (payload.setWidth 32)) s)

/-- F_READ (R52, R54): its dummy payload is sent as 0x000000 whatever the term holds (R55). DESIGN CHOICE (log 9). -/
def execFRead (addr : Addr) (_payload : U24) (s : State) : Answered :=
  .next (runFrame (xfer .read addr 0) s)

/-- F_READ_AND_CLEAR (R52, R54, R55). DESIGN CHOICE (log 9). -/
def execFReadAndClear (addr : Addr) (payload : U24) (s : State) : Answered :=
  .next (runFrame (xfer .readAndClear addr (payload.setWidth 32)) s)

/-- F_DEVICE_INFO, the FOUR shape of a ROM read (R52, R54, R55): the length of the exchange is the one CFG.ROM_SHAPE gives it (R58);
the decoder gives this form in the FOUR shape only (R67). DESIGN CHOICE (log 9). -/
def execFDeviceInfo (addr : Addr) (_payload : U24) (s : State) : Answered :=
  .next (runFrame (xfer .deviceInfo addr 0) s)

/-- F_DEVICE_INFO2, the TWO shape of a ROM read (R56): the length of the exchange is the one CFG.ROM_SHAPE gives it (R58); the decoder
gives this form in the TWO shape only (R67). DESIGN CHOICE (log 9). -/
def execFDeviceInfo2 (addr : Addr) (_dummy : Byte) (s : State) : Answered :=
  .next (runFrame (xfer .deviceInfo addr 0) s)

/-- F_RESPONSE4 (R53, R74). -/
def execFResponse4 (gsb : Byte) (data : U24) (s : State) : Answered :=
  .next (runResponse [gsb, data.extractLsb' 16 8, data.extractLsb' 8 8, data.extractLsb' 0 8] gsb (data.setWidth 32) s)

/-- F_RESPONSE2 (R57, R75). -/
def execFResponse2 (gsb data : Byte) (s : State) : Answered :=
  .next (runResponse [gsb, data] gsb (data.setWidth 32) s)

end Sys2Proof.Machine
end

