-- ==== Sys2Proof/Machine/Watchdog.lean ====
section
/-! DEFINITION. The watchdog refresh controller and the timing interlock, codes 0x08–0x0F (R90–R101). -/

namespace Sys2Proof.Machine

/-- DoRefresh() (R93): the trigger toggle, two frames. -/
def doRefresh (s : State) : Seq Unit :=
  andThen (checkWritable (trigReg s.cfg) s) fun _ s => readThenWrite (trigReg s.cfg) (toggled s.cfg) s

/-- The part of WDCheckBody after the clock sample (R92): an expired check resets WD_LAST whether or not a refresh follows. -/
def checkAt (now : U64) (s : State) : Seq Bool :=
  if expired s now then
    if s.wdRun then andThen (doRefresh (s.setLast now)) fun _ s => .run true s
    else .run true (s.setLast now)
  else .run false s

/-- WDCheckBody() (R92). -/
def wdCheckBody (s : State) : Seq Bool :=
  andThen (sampleNow s) fun now s => checkAt now (s.setNow now)

/-- WD_CHECK (R92). -/
def execWdCheck (s : State) : Answered :=
  .next (runCommand (fun s => andThen (wdCheckBody s) fun e s => .run (0, e) s) s)

/-- WD_REFRESH (R94): WD_LAST is not changed and WD_RUN is not read. -/
def execWdRefresh (s : State) : Answered :=
  .next (runCommand (fun s => andThen (doRefresh s) fun _ s => .run (0, false) s) s)

/-- The frames of WD_SET_INTERVAL (R96): the enable bit in the configuration register first, then the selector field. -/
def intervalFrames (arg : U32) (s : State) : Seq Unit :=
  andThen (modifySeq configAddr s.cfg.wdCfgEnMask s.cfg.wdCfgEnMask s) fun _ s =>
    modifySeq s.cfg.wdSelReg s.cfg.wdSelMask (selectorValue s.cfg arg) s

/-- WD_SET_INTERVAL code (R96): WD_INTERVAL and WD_LAST are updated after the frames. -/
def execWdSetInterval (arg : U32) (s : State) : Answered :=
  .next (runCommand (fun s =>
    andThen (checkRange arg maxIntervalCode s) fun _ s =>
      andThen (intervalFrames arg s) fun _ s =>
        andThen (sampleNow (s.setInterval (intervalOf s.cfg arg))) fun now s => .run (0, false) (s.setLast now)) s)

/-- WD_ENABLE (R97). -/
def execWdEnable (s : State) : Answered :=
  .next (runCommand (fun s => .run (0, false) (s.setRun true)) s)

/-- WD_DISABLE (R98). -/
def execWdDisable (s : State) : Answered :=
  .next (runCommand (fun s => .run (0, false) (s.setRun false)) s)

/-- MODE_SET mode (R99): a standby mode stops the controller after the frames; ACTIVE leaves WD_RUN as it was. -/
def execModeSet (arg : U32) (s : State) : Answered :=
  .next (runCommand (fun s =>
    andThen (checkRange arg maxMode s) fun _ s =>
      andThen (modifySeq s.cfg.modeReg s.cfg.modeMask (modeValue s.cfg arg) s) fun _ s =>
        .run (0, false) (if isStandby arg then s.setRun false else s)) s)

/-- The iterations of MAINTAIN that are left (R100): each checks, then sleeps, then counts. -/
def maintainLoop : Nat → State → Seq Unit
  | 0, s => .run () s
  | n + 1, s =>
    andThen (wdCheckBody s) fun _ s =>
      andThen (sleep1 s) fun _ s => maintainLoop n (s.setI (s.cur.i + 1))

/-- MAINTAIN ms (R100). -/
def execMaintain (arg : U32) (s : State) : Answered :=
  .next (runCommand (fun s =>
    andThen (maintainLoop arg.toNat (s.setI 0)) fun _ s => .run (0, false) s) s)

/-- The samples of READ_AVG that are left (R101): each reads, accumulates, then checks the watchdog. -/
def averageLoop (reg : Addr) (mask arg : U32) : Nat → State → Seq Unit
  | 0, s => .run () s
  | n + 1, s =>
    andThen (xfer .read reg 0 (s.setI (s.cur.i + 1))) fun v s =>
      andThen (wdCheckBody (s.setSum (s.cur.sum + sampleField v mask arg))) fun _ s =>
        averageLoop reg mask arg n s

/-- READ_AVG reg, mask, pos (R101): CUR.i counts the samples from 1 to 5. -/
def execReadAvg (reg : Addr) (mask arg : U32) (s : State) : Answered :=
  .next (runCommand (fun s =>
    andThen (checkRange arg maxBitPos s) fun _ s =>
      andThen (averageLoop reg mask arg avgSamples ((s.setSum 0).setI 0)) fun _ s =>
        .run (average s.cur.sum, false) s) s)

end Sys2Proof.Machine
end

