-- ==== Sys2Proof/Machine/Dispatch.lean ====
section
/-! DEFINITION. The dispatch: one arm per constructor of `Instr`, in the opcode table's order. -/

namespace Sys2Proof.Machine

/-- The meaning of one instruction. -/
def exec (i : Instr) (s : State) : Host.Outcome State Fault Refusal :=
  match i with
  | .write reg data => Sys2Proof.Machine.execWrite reg data s
  | .read reg => Sys2Proof.Machine.execRead reg s
  | .modify reg mask data => Sys2Proof.Machine.execModify reg mask data s
  | .rac reg mask => Sys2Proof.Machine.execRac reg mask s
  | .racList list => Sys2Proof.Machine.execRacList list s
  | .readRom addr => Sys2Proof.Machine.execReadRom addr s
  | .isWritable reg => Sys2Proof.Machine.execIsWritable reg s
  | .getGsb => Sys2Proof.Machine.execGetGsb s
  | .wdCheck => Sys2Proof.Machine.execWdCheck s
  | .wdRefresh => Sys2Proof.Machine.execWdRefresh s
  | .wdSetInterval arg => Sys2Proof.Machine.execWdSetInterval arg s
  | .wdEnable => Sys2Proof.Machine.execWdEnable s
  | .wdDisable => Sys2Proof.Machine.execWdDisable s
  | .modeSet arg => Sys2Proof.Machine.execModeSet arg s
  | .maintain arg => Sys2Proof.Machine.execMaintain arg s
  | .readAvg reg mask arg => Sys2Proof.Machine.execReadAvg reg mask arg s
  | .reserved code => Sys2Proof.Machine.execReserved code s
  | .fWrite addr payload => Sys2Proof.Machine.execFWrite addr payload s
  | .fRead addr payload => Sys2Proof.Machine.execFRead addr payload s
  | .fReadAndClear addr payload => Sys2Proof.Machine.execFReadAndClear addr payload s
  | .fDeviceInfo addr payload => Sys2Proof.Machine.execFDeviceInfo addr payload s
  | .fDeviceInfo2 addr dummy => Sys2Proof.Machine.execFDeviceInfo2 addr dummy s
  | .fResponse4 gsb data => Sys2Proof.Machine.execFResponse4 gsb data s
  | .fResponse2 gsb data => Sys2Proof.Machine.execFResponse2 gsb data s

end Sys2Proof.Machine
end

