-- ==== Sys2Proof/WellFormed.lean ====
section
/-! DEFINITION. Which instruction terms the spec's encodings admit. Operand values that a command refuses with
INVALID_SELECTOR (R63) are well formed: the command gives them a meaning. -/

namespace Sys2Proof

/-- R61: the reserved codes are 0x10–0x1F, those with bit 4 set. -/
def reservedCodeOk (code : BitVec 5) : Bool :=
  decide (16 ≤ code.toNat)

/-- R55: the dummy payload of a READ or DEVICE_INFO request is 0x000000. -/
def dummyPayloadOk (payload : U24) : Bool :=
  payload == 0

/-- R56: the dummy byte of the 2-byte ROM request is 0x00. -/
def dummyByteOk (dummy : Byte) : Bool :=
  dummy == 0

/-- An instruction the block's encodings admit: a reserved code is a reserved one, and a dummy field is zero ("The block never
emits a READ or DEVICE_INFO frame with a nonzero payload", R55). -/
def Instr.wellFormed : Instr → Bool
  | .reserved code => reservedCodeOk code
  | .fRead _ payload => dummyPayloadOk payload
  | .fDeviceInfo _ payload => dummyPayloadOk payload
  | .fDeviceInfo2 _ dummy => dummyByteOk dummy
  | .write _ _ => true
  | .read _ => true
  | .modify _ _ _ => true
  | .rac _ _ => true
  | .racList _ => true
  | .readRom _ => true
  | .isWritable _ => true
  | .getGsb => true
  | .wdCheck => true
  | .wdRefresh => true
  | .wdSetInterval _ => true
  | .wdEnable => true
  | .wdDisable => true
  | .modeSet _ => true
  | .maintain _ => true
  | .readAvg _ _ _ => true
  | .fWrite _ _ => true
  | .fReadAndClear _ _ => true
  | .fResponse4 _ _ => true
  | .fResponse2 _ _ => true

/-- The frames of a configured ROM shape: a ROM read has the length R58 gives it, and a 2-byte response comes only from a 2-byte ROM
exchange (R57). Commands and the other frames are the same in both shapes. -/
def Instr.fits (shape : Shape) : Instr → Bool
  | .fDeviceInfo _ _ => shape == .four
  | .fDeviceInfo2 _ _ | .fResponse2 _ _ => shape == .two
  | .write _ _ | .read _ | .modify _ _ _ | .rac _ _ | .racList _ | .readRom _ | .isWritable _ | .getGsb => true
  | .wdCheck | .wdRefresh | .wdSetInterval _ | .wdEnable | .wdDisable | .modeSet _ | .maintain _ | .readAvg _ _ _ => true
  | .reserved _ | .fWrite _ _ | .fRead _ _ | .fReadAndClear _ _ | .fResponse4 _ _ => true

end Sys2Proof
end

