-- ==== Sys2Proof/Decode.lean ====
section
/-! DEFINITION. Decoding what stands at a port, total on any bytes and rejecting by name (R52–R62, R67), and the encoder
written from the same tables. -/

namespace Sys2Proof

/-- A command code with its operands (R60, R62); every code from 0x10 up is reserved (R61). -/
def decodeCommand (code : BitVec 5) (ops : Operands) : Instr :=
  match code.toNat with
  | 0x00 => .write ops.reg ops.data
  | 0x01 => .read ops.reg
  | 0x02 => .modify ops.reg ops.mask ops.data
  | 0x03 => .rac ops.reg ops.mask
  | 0x04 => .racList ops.list
  | 0x05 => .readRom ops.reg
  | 0x06 => .isWritable ops.reg
  | 0x07 => .getGsb
  | 0x08 => .wdCheck
  | 0x09 => .wdRefresh
  | 0x0A => .wdSetInterval ops.arg
  | 0x0B => .wdEnable
  | 0x0C => .wdDisable
  | 0x0D => .modeSet ops.arg
  | 0x0E => .maintain ops.arg
  | 0x0F => .readAvg ops.reg ops.mask ops.arg
  | _ => .reserved code

/-- A frame form, or the name of what is wrong with its dummy bits (R55, R56). -/
def withDummy (ok : Bool) (header : Byte) (i : Instr) : Except DecodeError Instr :=
  if ok then .ok i else .error (.nonzeroDummy header)

/-- A 4-byte request: its kind from bits 7:6 of the header, its address from bits 5:0, its payload from bytes 1..3 (R52, R67). A ROM
request has four bytes in the FOUR shape only (R58). -/
def decodeRequest4 (shape : Shape) (header b1 b2 b3 : Byte) : Except DecodeError Instr :=
  match Machine.opOf header with
  | .write => .ok (.fWrite (header.setWidth 6) (b1 ++ b2 ++ b3))
  | .read => withDummy (dummyPayloadOk (b1 ++ b2 ++ b3)) header (.fRead (header.setWidth 6) (b1 ++ b2 ++ b3))
  | .readAndClear => .ok (.fReadAndClear (header.setWidth 6) (b1 ++ b2 ++ b3))
  | .deviceInfo =>
    match shape with
    | .four => withDummy (dummyPayloadOk (b1 ++ b2 ++ b3)) header (.fDeviceInfo (header.setWidth 6) (b1 ++ b2 ++ b3))
    | .two => .error (.romLength 4)

/-- A 2-byte request: a ROM read in the TWO shape, or no frame at all (R56, R58). -/
def decodeRequest2 (shape : Shape) (header dummy : Byte) : Except DecodeError Instr :=
  match Machine.opOf header with
  | .deviceInfo =>
    match shape with
    | .two => withDummy (dummyByteOk dummy) header (.fDeviceInfo2 (header.setWidth 6) dummy)
    | .four => .error (.romLength 2)
  | _ => .error (.twoByteNotRom header)

/-- Request frames: the kind from the header alone, the length that the kind must have from CFG.ROM_SHAPE (R58, R67). -/
def decodeRequest (shape : Shape) : List Byte → Except DecodeError Instr
  | [b0, b1, b2, b3] => decodeRequest4 shape b0 b1 b2 b3
  | [b0, b1] => decodeRequest2 shape b0 b1
  | bytes => .error (.requestLength bytes.length)

/-- Response frames by their length (R53, R57, R58): they carry no opcode and no address. Only the TWO shape has an exchange of two
bytes. -/
def decodeResponse (shape : Shape) : List Byte → Except DecodeError Instr
  | [b0, b1, b2, b3] => .ok (.fResponse4 b0 (b1 ++ b2 ++ b3))
  | [b0, b1] =>
    match shape with
    | .two => .ok (.fResponse2 b0 b1)
    | .four => .error (.romLength 2)
  | bytes => .error (.responseLength bytes.length)

/-- The decoder, under a configured ROM shape (R67: a request's "length from CFG.ROM_SHAPE and the kind"). -/
def decode (shape : Shape) : Presented → Except DecodeError Instr
  | .command code ops =>
    if code.toNat < 32 then .ok (decodeCommand (code.setWidth 5) ops) else .error (.codeTooWide code)
  | .request bytes => decodeRequest shape bytes
  | .response bytes => decodeResponse shape bytes

/-- A request frame's bytes (R72). -/
def encodeRequest4 (op : Op) (addr : Addr) (payload : U24) : Presented :=
  .request (Machine.buildFrame4 op (addr.setWidth 32) (payload.setWidth 32))

/-- The encoder: what is presented for an instruction, with zeros in the operands its command does not read (R52–R62). -/
def encode : Instr → Presented
  | .write reg data => .command 0x00 { reg := reg, data := data }
  | .read reg => .command 0x01 { reg := reg }
  | .modify reg mask data => .command 0x02 { reg := reg, mask := mask, data := data }
  | .rac reg mask => .command 0x03 { reg := reg, mask := mask }
  | .racList list => .command 0x04 { list := list }
  | .readRom addr => .command 0x05 { reg := addr }
  | .isWritable reg => .command 0x06 { reg := reg }
  | .getGsb => .command 0x07 {}
  | .wdCheck => .command 0x08 {}
  | .wdRefresh => .command 0x09 {}
  | .wdSetInterval arg => .command 0x0A { arg := arg }
  | .wdEnable => .command 0x0B {}
  | .wdDisable => .command 0x0C {}
  | .modeSet arg => .command 0x0D { arg := arg }
  | .maintain arg => .command 0x0E { arg := arg }
  | .readAvg reg mask arg => .command 0x0F { reg := reg, mask := mask, arg := arg }
  | .reserved code => .command (code.setWidth 8) {}
  | .fWrite addr payload => encodeRequest4 .write addr payload
  | .fRead addr payload => encodeRequest4 .read addr payload
  | .fReadAndClear addr payload => encodeRequest4 .readAndClear addr payload
  | .fDeviceInfo addr payload => encodeRequest4 .deviceInfo addr payload
  | .fDeviceInfo2 addr dummy => .request [Machine.encodeHeader .deviceInfo (addr.setWidth 32), dummy]
  | .fResponse4 gsb data => .response [gsb, data.extractLsb' 16 8, data.extractLsb' 8 8, data.extractLsb' 0 8]
  | .fResponse2 gsb data => .response [gsb, data]

/-- What stands at a port for `nbits` bits `w` numbered as spec/opcode_table.json numbers them. Up to 8 bits are a command code
with zero operands; 16 and 32 bits are a frame word, byte 0 in its high bits (R36). DESIGN CHOICE (log 12): the table gives no
direction, so a word is a request where the request encodings admit it and a response otherwise. -/
def tablePresented (nbits w : Nat) : Presented :=
  if nbits ≤ 8 then .command (BitVec.ofNat 8 w) {}
  else if nbits ≤ 16 then
    match Machine.opOf (BitVec.ofNat 8 (w / 256)) with
    | .deviceInfo => .request [BitVec.ofNat 8 (w / 256), BitVec.ofNat 8 w]
    | _ => .response [BitVec.ofNat 8 (w / 256), BitVec.ofNat 8 w]
  else .request [BitVec.ofNat 8 (w / 16777216), BitVec.ofNat 8 (w / 65536), BitVec.ofNat 8 (w / 256), BitVec.ofNat 8 w]

/-- The ROM shape under which what is presented can be a frame: FOUR for a 4-byte ROM request, TWO for a frame of two bytes, and
otherwise the shape there is (R58; log 12). -/
def shapeFor (p : Presented) (shape : Shape) : Shape :=
  match p with
  | .command _ _ => shape
  | .request [b0, _, _, _] =>
    match Machine.opOf b0 with
    | .deviceInfo => .four
    | _ => shape
  | .request [_, _] => .two
  | .request _ => shape
  | .response [_, _] => .two
  | .response _ => shape

/-- The instruction the decoder reads from `nbits` bits `w`, numbered as spec/opcode_table.json numbers them, under the ROM shape that
the word is for (log 12). -/
def decodeTableWord (nbits w : Nat) : Option Instr :=
  match decode (shapeFor (tablePresented nbits w) .four) (tablePresented nbits w) with
  | .ok i => some i
  | .error _ => none

end Sys2Proof
end

