-- ==== Sys2Proof/Machine/Fetch.lean ====
section
/-! DEFINITION. The block's side of the host's moves (R5, R24, R121, R135, R136): what the next step is, accepting a command,
resetting, and placing a word of the opcode table where the next step takes its instruction. -/

namespace Sys2Proof.Machine

/-- What the next step is. -/
inductive Fetch where
  /-- Nothing is presented: the host is idle (R136). -/
  | idle
  /-- CUR.busy = 1 and no reset: the sequencer has no step (R109, R135). -/
  | stuck
  /-- The host resets the block. -/
  | reset (s : State)
  /-- The host's reset carries a configuration that fails R122 or the widths of R21. -/
  | configRefused
  /-- What is presented is no instruction of the block under its configuration. -/
  | notPresentable (e : DecodeError)
  /-- An instruction is accepted. -/
  | run (i : Instr) (s : State)
deriving DecidableEq, Repr

/-- The state with the host's next move taken off the queue. -/
def State.taken (s : State) (rest : List Move) : State :=
  { s with env := { s.env with pending := rest } }

/-- The agents outside after a reset: the clock has been sampled once, one free value is drawn for GSB and CUR, and the strike
inside a command that may be due is the one listed for after this reset (R136: "reset at any time"; log 8). -/
def envAfterReset (s : State) : Env :=
  { (takeSample s).env with
    abandonAfter := s.env.resetStrikes.headD none
    resetStrikes := s.env.resetStrikes.tail
    drawn := (takeSample s).env.drawn + 1
    trace := s.env.trace ++ [.reset] }

/-- Reset with a configuration (R121): the block's state anew, whatever it was doing; no frame (R123). -/
def hostReset (cfg : Cfg) (s : State) : State :=
  State.afterReset cfg (Config.freeByte (takeSample s).env.drawn) (Config.freeCur (takeSample s).env.drawn)
    (clockSample s) (envAfterReset s)

/-- Accept what is presented: "the block copies them into CUR at acceptance" (R24, R136; log 13); a frame is no command
(log 9). -/
def accept (p : Presented) (s : State) : State :=
  match p with
  | .command code ops =>
    { s with cur := { s.cur with code := code.setWidth 5, ops := ops, busy := true, step := 0 } }
  | .request _ => s
  | .response _ => s

/-- What the next step is, from the host's next move. -/
def fetch (s : State) : Fetch :=
  match s.env.pending with
  | [] => if s.cur.busy then .stuck else .idle
  | .reset cfg :: rest => if cfgOk cfg then .reset (hostReset cfg (s.taken rest)) else .configRefused
  | .present p :: rest =>
    if s.cur.busy then .stuck
    else
      match decode s.cfg.romShape p with
      | .ok i => .run i (accept p (s.taken rest))
      | .error e => .notPresentable e

/-- The state in which the very next step runs the instruction of a table word: it is the host's next move, no command is in
progress, and CFG.ROM_SHAPE is the one the word's length needs (log 2). -/
def placeWord (s : State) (nbits w : Nat) : State :=
  { s.setBusy false with
    cfg := { s.cfg with romShape := shapeFor (tablePresented nbits w) s.cfg.romShape }
    env := { s.env with pending := .present (tablePresented nbits w) :: s.env.pending } }

end Sys2Proof.Machine
end

