-- ==== Sys2Proof/Machine/Step.lean ====
section
/-! DEFINITION. One step of the machine: the host's next move, and for an instruction its whole execution (log 1). -/

namespace Sys2Proof.Machine

/-- One step. An idle host changes nothing (R136: "no frame; no check"). -/
def step (s : State) : Host.Outcome State Fault Refusal :=
  match fetch s with
  | .idle => .next s
  | .stuck => .fault .stuck
  | .reset s' => .next s'
  | .configRefused => .refused .configRefused
  | .notPresentable e => .refused (.notPresentable e)
  | .run i s' => exec i s'

/-- `s` with the instruction of a table word as the host's next move (log 2). -/
def State.withFetchWord (s : State) (nbits w : Nat) : State :=
  placeWord s nbits w

end Sys2Proof.Machine
end

