-- ==== Sys2Proof/Safety.lean ====
section
/-! DEFINITION. What claims about the machine are stated in: the launch premise (R137), the host duty on intervals (R128), what the
ports may show (R41, R108, R111), the machine's invariant, and the expiries of a run of watchdog checks (R91, R103). -/

namespace Sys2Proof.Machine

/-- CLEAN_START (R137): the state R121 produces, with nothing in flight and a configuration that passes the checks of R21
and R122. -/
def cleanStart (s : State) : Prop :=
  s.faulted = false ∧ s.cur.busy = false ∧ s.cs = false ∧ s.gsbValid = false ∧ s.wdRun = true
    ∧ s.wdInterval = tableGet s.cfg.wdIntervalMs s.cfg.wdDefaultCode ∧ s.wdLast = s.env.clock
    ∧ s.res = ⟨.ok, 0, false⟩ ∧ cfgOk s.cfg = true

/-- The host duty R128 for one interval code: the trigger interval lies strictly below the device's limit. The block does not check
it. -/
def intervalBelowLimit (c : Cfg) (code : BitVec 2) : Bool :=
  decide (tableGet c.wdIntervalMs code < tableGet c.wdDeviceTimeoutMs code)

/-! ### What the ports may show -/

/-- Where the exchange port stands (R41). -/
inductive Phase where
  /-- No device is selected. -/
  | idle
  /-- Device-select is asserted, its frame not yet exchanged. -/
  | selected
  /-- The frame of this bracket has been exchanged. -/
  | exchanged
  /-- The exchange of this bracket never returned (R109). -/
  | hung
deriving DecidableEq, Repr

/-- What an observer of the ports knows: where the exchange port stands, byte 0 of the last Ok response since reset, whether an
exchange has failed since reset, and the last result. -/
structure PortView where
  phase : Phase
  gsb : Option Byte
  faulted : Bool
  res : Res
deriving DecidableEq, Repr

/-- What an observer knows right after reset (R121). -/
def PortView.fresh : PortView where
  phase := .idle
  gsb := none
  faulted := false
  res := ⟨.ok, 0, false⟩

/-- One event seen at the ports, or `none` where the spec has no such event: one frame to a bracket and one bracket to a frame
(R41), 4 or 2 bytes each way (R40, R58), and after a failed exchange no frame, no clock sample and no wait until reset (R108, R111,
R115). -/
def observe (v : PortView) : Event → Option PortView
  | .select => if v.phase = .idle ∧ v.faulted = false then some { v with phase := .selected } else none
  | .frame _ tx (.ok rx) =>
    if v.phase = .selected ∧ (tx.length = 4 ∨ tx.length = 2) ∧ rx.length = tx.length then
      some { v with phase := .exchanged, gsb := rx.head? }
    else none
  | .frame _ tx .fail =>
    if v.phase = .selected ∧ (tx.length = 4 ∨ tx.length = 2) then
      some { v with phase := .exchanged, faulted := true }
    else none
  | .frame _ tx .never =>
    if v.phase = .selected ∧ (tx.length = 4 ∨ tx.length = 2) then some { v with phase := .hung } else none
  | .deselect => if v.phase = .exchanged then some { v with phase := .idle } else none
  | .response rx => if v.phase = .idle ∧ v.faulted = false then some { v with gsb := rx.head? } else none
  | .sample _ => if v.phase = .idle ∧ v.faulted = false then some v else none
  | .sleep => if v.phase = .idle ∧ v.faulted = false then some v else none
  | .result r => if v.phase = .idle then some { v with res := r } else none
  | .reset => some .fresh

/-- A whole history seen at the ports, oldest event first. -/
def observeAll : PortView → List Event → Option PortView
  | v, [] => some v
  | v, e :: es =>
    match observe v e with
    | some v' => observeAll v' es
    | none => none

/-- What an observer should know of a state's exchange port, GSB, FAULTED and RES. -/
def viewOf (phase : Phase) (s : State) : PortView where
  phase := phase
  gsb := if s.gsbValid then some s.gsb else none
  faulted := s.faulted
  res := s.res

/-- The history of the ports is one the spec allows, and it determines GSB, GSB_VALID, FAULTED and RES (R17, R23, R25, R41); a hung
exchange is the only one in flight between steps, and CS = 1 only in it (R26, R109). -/
def historyOk (s : State) : Prop :=
  ∃ phase, observeAll .fresh s.env.trace = some (viewOf phase s)
    ∧ (phase = .idle ∧ s.cs = false ∨ phase = .hung ∧ s.cs = drivesCs s.cfg ∧ s.cur.busy = true)

/-! ### The invariant -/

/-- WD_INTERVAL is an entry of the configured table (R19). -/
def intervalInTable (s : State) : Prop :=
  ∃ code, s.wdInterval = tableGet s.cfg.wdIntervalMs code

/-- RES names a transport fault, or FAULTED, only while FAULTED = 1 (R108, R111). -/
def statusOk (s : State) : Prop :=
  s.res.status = .transportFault ∨ s.res.status = .faulted → s.faulted = true

/-- The invariant of the machine: the configuration passes the checks of R21 and R122, WD_INTERVAL is in the table (R19), WD_LAST is no later than the
last clock sample (R20, R116), the port history is legal and explains GSB, FAULTED and RES, the last payload is a 24-bit value
(R34), and the device's memory is canonical. -/
structure Inv (s : State) : Prop where
  cfg : cfgOk s.cfg = true
  interval : intervalInTable s
  last : s.wdLast ≤ s.env.clock
  history : historyOk s
  status : statusOk s
  payload : s.rxData.toNat < 2 ^ 24
  device : s.env.device.wf = true

/-! ### Runs of watchdog checks -/

/-- Which checks of a run find expiry, by their clock samples, from WD_LAST before the run (R91, R92). -/
def expiryMarks (interval : U32) : U64 → List U64 → List Bool
  | _, [] => []
  | last, c :: cs =>
    if interval.setWidth 64 ≤ c - last then true :: expiryMarks interval c cs
    else false :: expiryMarks interval last cs

/-- WD_LAST after a run of checks, by their clock samples, from WD_LAST before it (R91, R92). -/
def lastExpiry (interval : U32) : U64 → List U64 → U64
  | last, [] => last
  | last, c :: cs =>
    if interval.setWidth 64 ≤ c - last then lastExpiry interval c cs else lastExpiry interval last cs

/-- The clock samples a history holds. -/
def samplesOf (es : List Event) : List U64 :=
  es.filterMap fun e => match e with
    | .sample c => some c
    | _ => none

end Sys2Proof.Machine
end

