-- ==== Sys2Proof/Safety/Expected.lean ====
section
/-! DEFINITION. The states the spec's rules lead to, written from the rules and not from the commands' definitions: claims about
commands say that `exec` answers one of these. -/

namespace Sys2Proof.Machine

/-- The block is not FAULTED and the host's reset does not strike inside the command. -/
def ready (s : State) : Prop :=
  s.faulted = false ∧ s.env.abandonAfter = none

/-- A request frame of four bytes, field by field (R52): OP, ADDR, PAYLOAD most significant byte first. -/
def wire (op : BitVec 2) (a : Addr) (p : U24) : List Byte :=
  [op ++ a, p.extractLsb' 16 8, p.extractLsb' 8 8, p.extractLsb' 0 8]

/-- The request of a ROM read in the TWO shape (R56). -/
def wireRom2 (a : Addr) : List Byte :=
  [3#2 ++ a, 0]

/-- A register value made of response bytes 1..3, bits 31:24 zero (R53, R71). -/
def payload (b1 b2 b3 : Byte) : U32 :=
  (b1 ++ b2 ++ b3).setWidth 32

/-- The end of a command (R25, R135): RES is written, CUR.busy becomes 0, nothing else changes; the record of the ports grows by the
result. -/
def completed (status : Status) (data : U32) (flag : Bool) (s : State) : State :=
  { s with
    res := ⟨status, data, flag⟩
    cur := { s.cur with busy := false }
    env := { s.env with trace := s.env.trace ++ [.result ⟨status, data, flag⟩] } }

/-- The agents outside after an exchange of `tx`, with what it added to the record of the ports. -/
def envAsked (tx : List Byte) (es : List Event) (s : State) : Env :=
  { (askDevice tx s).env with trace := s.env.trace ++ es }

/-- One exchange of a 4-byte request that the device answered Ok (R40, R41, R78): GSB cached, CS back at 0, one bracket on the port. -/
def replied4 (tx : List Byte) (b0 b1 b2 b3 : Byte) (s : State) : State :=
  { s with
    gsb := b0
    gsbValid := true
    cs := false
    rxData := payload b1 b2 b3
    cur := { s.cur with step := s.cur.step + 1 }
    env := envAsked tx [.select, .frame (spiMode s.cfg) tx (.ok [b0, b1, b2, b3]), .deselect] s }

/-- One exchange of a 2-byte request that the device answered Ok (R56, R57, R78). -/
def replied2 (tx : List Byte) (b0 b1 : Byte) (s : State) : State :=
  { s with
    gsb := b0
    gsbValid := true
    cs := false
    rxData := b1.setWidth 32
    cur := { s.cur with step := s.cur.step + 1 }
    env := envAsked tx [.select, .frame (spiMode s.cfg) tx (.ok [b0, b1]), .deselect] s }

/-- One exchange that failed (R108): FAULTED, the command over with the header byte in RES.data, GSB as it was. -/
def failed (tx : List Byte) (header : Byte) (s : State) : State :=
  completed .transportFault (header.setWidth 32) false
    { s with
      faulted := true
      cs := false
      cur := { s.cur with step := s.cur.step + 1 }
      env := envAsked tx [.select, .frame (spiMode s.cfg) tx .fail, .deselect] s }

/-- One clock sample (R13, R116). -/
def sampled (s : State) : State :=
  { s with
    cur := { s.cur with step := s.cur.step + 1 }
    env := { (takeSample s).env with trace := s.env.trace ++ [.sample (clockSample s)] } }

/-- The clock sample of a watchdog check, kept in CUR.now (R92). -/
def checkSampled (s : State) : State :=
  { sampled s with cur := { (sampled s).cur with now := clockSample s } }

/-- The frames of RAC_LIST, each answered Ok (R83); `none` where one is not. -/
def racReplied : List (Addr × U32) → State → Option State
  | [], s => some s
  | (reg, mask) :: rest, s =>
    match deviceAnswer (wire 2 reg (mask.setWidth 24)) s with
    | .ok b0 b1 b2 b3 => racReplied rest (replied4 (wire 2 reg (mask.setWidth 24)) b0 b1 b2 b3 s)
    | _ => none

/-- A READ of `a` answered with the value `t`, then a WRITE of `v` to it, both answered Ok (R81, R93); CUR.tmp keeps `v`. -/
def rewritten (a : Addr) (v : U32) (b0 b1 b2 b3 c0 c1 c2 c3 : Byte) (s : State) : State :=
  replied4 (wire 0 a (v.setWidth 24)) c0 c1 c2 c3
    { replied4 (wire 1 a 0) b0 b1 b2 b3 s with
      cur := { (replied4 (wire 1 a 0) b0 b1 b2 b3 s).cur with tmp := v } }

/-- The device answers the READ of `a` Ok with bytes `b`, and then the WRITE of `v` Ok with bytes `c`. -/
def rewriteAnswered (a : Addr) (v : U32) (b0 b1 b2 b3 c0 c1 c2 c3 : Byte) (s : State) : Prop :=
  deviceAnswer (wire 1 a 0) s = .ok b0 b1 b2 b3
    ∧ deviceAnswer (wire 0 a (v.setWidth 24)) (replied4 (wire 1 a 0) b0 b1 b2 b3 s) = .ok c0 c1 c2 c3

/-- The merge of a read-modify-write: bits of `d` inside the mask, of `t` outside it (R81). -/
def merged (mask d t : U32) : U32 :=
  (t &&& ~~~mask) ||| (d &&& mask)

/-! ### What a run of checks shows at the ports -/

/-- The four bytes of an Ok response, in wire order (R53). -/
abbrev Rx4 := Byte × Byte × Byte × Byte

/-- The device's answer with these bytes. -/
def rxAnswer (b : Rx4) : Answer :=
  .ok b.1 b.2.1 b.2.2.1 b.2.2.2

/-- The register value these bytes carry. -/
def rxPayload (b : Rx4) : U32 :=
  payload b.2.1 b.2.2.1 b.2.2.2

/-- A bracket on the port (R41) around one frame that these bytes answered. -/
def bracket (c : Cfg) (tx : List Byte) (b : Rx4) : List Event :=
  [.select, .frame (spiMode c) tx (.ok [b.1, b.2.1, b.2.2.1, b.2.2.2]), .deselect]

/-- One watchdog check as the ports show it: its clock sample, and the bytes received by the two frames of its refresh if it made
one. -/
structure CheckSeen where
  now : U64
  refresh : Option (Rx4 × Rx4)
deriving DecidableEq, Repr

/-- The events of a refresh answered Ok (R93): a READ of TRIG_REG and a WRITE of the value read with the trigger bit flipped. -/
def refreshEvents (c : Cfg) (b d : Rx4) : List Event :=
  bracket c (wire 1 (trigReg c) 0) b ++ bracket c (wire 0 (trigReg c) ((rxPayload b ^^^ trigMask c).setWidth 24)) d

/-- The events of one check (R92): the clock sample, then its refresh if it made one. -/
def checkEvents (c : Cfg) (k : CheckSeen) : List Event :=
  .sample k.now :: match k.refresh with
    | some (b, d) => refreshEvents c b d
    | none => []

/-- The answers of the device that one check used up. -/
def checkAnswers (k : CheckSeen) : List Answer :=
  match k.refresh with
  | some (b, d) => [rxAnswer b, rxAnswer d]
  | none => []

/-- The events of one MAINTAIN iteration (R100): a check, then a sleep. -/
def iterationEvents (c : Cfg) (k : CheckSeen) : List Event :=
  checkEvents c k ++ [.sleep]

/-- One sample of READ_AVG as the ports show it (R101): the bytes its READ received, and the check after it. -/
structure AverageSeen where
  read : Rx4
  check : CheckSeen
deriving DecidableEq, Repr

/-- The events of one sample of READ_AVG (R101): the READ of the register, then the check. -/
def averageEvents (c : Cfg) (reg : Addr) (r : AverageSeen) : List Event :=
  bracket c (wire 1 reg 0) r.read ++ checkEvents c r.check

/-- The answers of the device that one sample of READ_AVG used up. -/
def averageAnswers (r : AverageSeen) : List Answer :=
  rxAnswer r.read :: checkAnswers r.check

/-- The field of one sample, as a number (R101). -/
def fieldOf (mask arg : U32) (b : Rx4) : Nat :=
  (rxPayload b &&& mask).toNat / 2 ^ arg.toNat

/-- A run of checks that starts in `s` is what the block owes (R91, R92, R103 (c)): a refresh at exactly the expiries found while
RUNNING, samples that do not go back, and the scripted ones where they are given (log 4). -/
def checksOwed (s : State) (ks : List CheckSeen) : Prop :=
  ks.map (fun k => k.refresh.isSome) = (expiryMarks s.wdInterval s.wdLast (ks.map CheckSeen.now)).map (fun e => e && s.wdRun)
    ∧ (s.env.clock :: ks.map CheckSeen.now).Pairwise (· ≤ ·)
    ∧ ∀ cs more, s.env.samples = cs ++ more → cs.length = ks.length → (s.env.clock :: cs).Pairwise (· ≤ ·) →
        ks.map CheckSeen.now = cs

/-- The clock sample of an event that the READ of a refresh directly follows (R93): a sample, then device-select and the READ of
TRIG_REG. -/
def refreshSample (trig : Addr) : Event → List Event → Option U64
  | .sample c, .select :: .frame _ tx _ :: _ => if tx = wire 1 trig 0 then some c else none
  | _, _ => none

/-- The clock samples of a history at which a refresh goes out, oldest first (R93). -/
def refreshedAt (trig : Addr) : List Event → List U64
  | [] => []
  | e :: es => (refreshSample trig e es).toList ++ refreshedAt trig es

/-- The commands that a FAULTED block refuses (R111): all but IS_WRITABLE and GET_GSB. -/
def refusedWhenFaulted : Instr → Bool
  | .write _ _ | .read _ | .modify _ _ _ | .rac _ _ | .racList _ | .readRom _ => true
  | .wdCheck | .wdRefresh | .wdSetInterval _ | .wdEnable | .wdDisable | .modeSet _ | .maintain _ | .readAvg _ _ _ => true
  | .isWritable _ | .getGsb | .reserved _ => false
  | .fWrite _ _ | .fRead _ _ | .fReadAndClear _ _ | .fDeviceInfo _ _ | .fDeviceInfo2 _ _ => false
  | .fResponse4 _ _ | .fResponse2 _ _ => false

/-- The frame forms: what is no command of the command port (R2, R60). -/
def isFrame : Instr → Bool
  | .fWrite _ _ | .fRead _ _ | .fReadAndClear _ _ | .fDeviceInfo _ _ | .fDeviceInfo2 _ _ => true
  | .fResponse4 _ _ | .fResponse2 _ _ => true
  | .write _ _ | .read _ | .modify _ _ _ | .rac _ _ | .racList _ | .readRom _ => false
  | .wdCheck | .wdRefresh | .wdSetInterval _ | .wdEnable | .wdDisable | .modeSet _ | .maintain _ | .readAvg _ _ _ => false
  | .isWritable _ | .getGsb | .reserved _ => false

/-- The commands that issue no frame (R88, R97, R98, R61). -/
def issuesNoFrame : Instr → Bool
  | .isWritable _ | .getGsb | .reserved _ | .wdEnable | .wdDisable => true
  | .write _ _ | .read _ | .modify _ _ _ | .rac _ _ | .racList _ | .readRom _ => false
  | .wdCheck | .wdRefresh | .wdSetInterval _ | .modeSet _ | .maintain _ | .readAvg _ _ _ => false
  | .fWrite _ _ | .fRead _ _ | .fReadAndClear _ _ | .fDeviceInfo _ _ | .fDeviceInfo2 _ _ => false
  | .fResponse4 _ _ | .fResponse2 _ _ => false

/-- The device registers an instruction stores to (R39, R88): what its WRITE and READ_AND_CLEAR frames name. A refresh stores to
TRIG_REG (R93). -/
def storesTo (c : Cfg) : Instr → Addr → Prop
  | .write reg _, a => a = reg
  | .modify reg _ _, a => a = reg
  | .rac reg _, a => a = reg
  | .racList list, a => ∃ mask, (a, mask) ∈ list
  | .wdCheck, a | .wdRefresh, a | .maintain _, a | .readAvg _ _ _, a => a = trigReg c
  | .wdSetInterval _, a => a = configAddr ∨ a = c.wdSelReg
  | .modeSet _, a => a = c.modeReg
  | .fWrite addr _, a => a = addr
  | .fReadAndClear addr _, a => a = addr
  | .read _, _ | .readRom _, _ | .isWritable _, _ | .getGsb, _ | .wdEnable, _ | .wdDisable, _ | .reserved _, _ => False
  | .fRead _ _, _ | .fDeviceInfo _ _, _ | .fDeviceInfo2 _ _, _ | .fResponse4 _ _, _ | .fResponse2 _ _, _ => False

/-- A request the block may put on the port: a frame of the configured ROM shape with zero dummy bits (R55, R56, R58), and no WRITE
to a non-writable address while CFG.ENFORCE_WRITABLE is true (R59, R87). -/
def requestAllowed (c : Cfg) (tx : List Byte) : Prop :=
  ∃ i, decode c.romShape (.request tx) = .ok i ∧ i.wellFormed = true ∧ i.fits c.romShape = true
    ∧ ∀ a p, i = .fWrite a p → c.enforceWritable = true → writable a = true

end Sys2Proof.Machine
end

