-- ==== Sys2Proof/Certificates/Slice0/Obligations.lean ====
section
/-! DEFINITION. The statements for the provers, from the spec's numbered rules. -/

open Sys2Proof Sys2Proof.Machine

/-! ### Encodings and the frame codec -/

/-- Every well-formed instruction is read back from its encoding, with every operand at every value, under every ROM shape that has
its form (R52–R62). -/
def Obligations.DecodeOfEncodeIsTheInstruction : Prop :=
  ∀ (shape : Shape) (i : Instr), i.wellFormed = true → i.fits shape = true → decode shape (encode i) = .ok i

/-- No bit of a frame is dropped: a frame's bytes are rebuilt from what the decoder reads (R52, R53, R56, R57). -/
def Obligations.EncodeOfDecodedFrameIsTheFrame : Prop :=
  ∀ (shape : Shape) (bytes : List Byte) (i : Instr),
    (decode shape (.request bytes) = .ok i → encode i = .request bytes)
      ∧ (decode shape (.response bytes) = .ok i → encode i = .response bytes)

/-- The decoder gives only what the encodings admit: a reserved code is a reserved one, dummy bits are zero, and a ROM frame has the
length CFG.ROM_SHAPE gives it (R55, R56, R58, R61, R67). -/
def Obligations.DecodedInstructionsAreWellFormed : Prop :=
  ∀ (shape : Shape) (p : Presented) (i : Instr), decode shape p = .ok i → i.wellFormed = true ∧ i.fits shape = true

/-- A few words written out from the encoding tables decode to what they stand for (R52, R53, R54, R56, R60). -/
def Obligations.WrittenOutWordsDecode : Prop :=
  (∀ shape, decode shape (.request [0x05, 0xAB, 0xCD, 0xEF]) = .ok (.fWrite 0x05 0xABCDEF))
    ∧ (∀ shape, decode shape (.request [0x73, 0x00, 0x00, 0x00]) = .ok (.fRead 0x33 0))
    ∧ (∀ shape, decode shape (.request [0xBC, 0xFF, 0xFF, 0xFF]) = .ok (.fReadAndClear 0x3C 0xFFFFFF))
    ∧ decode .four (.request [0xFF, 0x00, 0x00, 0x00]) = .ok (.fDeviceInfo 0x3F 0)
    ∧ decode .two (.request [0xFF, 0x00]) = .ok (.fDeviceInfo2 0x3F 0)
    ∧ (∀ shape, decode shape (.response [0xA5, 0x00, 0x00, 0x01]) = .ok (.fResponse4 0xA5 0x000001))
    ∧ decode .two (.response [0x0C, 0x30]) = .ok (.fResponse2 0x0C 0x30)
    ∧ ∀ shape, decode shape (.command 0x0A { arg := 2 }) = .ok (.wdSetInterval 2)

/-- What no encoding table gives (R55–R58, R60, R67; log 19), each refused by its name: a command code of more than five bits, a frame
of a length that no frame has, a 2-byte request with an OP other than 11, a ROM frame of the length CFG.ROM_SHAPE does not give
it, and a READ or ROM request with a dummy bit set. -/
def Obligations.OtherEncodingsAreRefused : Prop :=
  (∀ (shape : Shape) (code : Byte) (ops : Operands), 32 ≤ code.toNat →
      decode shape (.command code ops) = .error (.codeTooWide code))
    ∧ (∀ (shape : Shape) (bytes : List Byte), bytes.length ≠ 4 → bytes.length ≠ 2 →
        decode shape (.request bytes) = .error (.requestLength bytes.length)
          ∧ decode shape (.response bytes) = .error (.responseLength bytes.length))
    ∧ (∀ (shape : Shape) (header dummy : Byte), header.extractLsb' 6 2 ≠ 3 →
        decode shape (.request [header, dummy]) = .error (.twoByteNotRom header))
    ∧ (∀ header b1 b2 b3 : Byte, header.extractLsb' 6 2 = 3 →
        decode .two (.request [header, b1, b2, b3]) = .error (.romLength 4)
          ∧ decode .four (.request [header, b1]) = .error (.romLength 2))
    ∧ (∀ b0 b1 : Byte, decode .four (.response [b0, b1]) = .error (.romLength 2))
    ∧ (∀ (shape : Shape) (header b1 b2 b3 : Byte), b1 ++ b2 ++ b3 ≠ (0 : U24) →
        header.extractLsb' 6 2 = 1 ∨ header.extractLsb' 6 2 = 3 ∧ shape = .four →
        decode shape (.request [header, b1, b2, b3]) = .error (.nonzeroDummy header))
    ∧ ∀ header dummy : Byte, header.extractLsb' 6 2 = 3 → dummy ≠ 0 →
        decode .two (.request [header, dummy]) = .error (.nonzeroDummy header)

/-- The codec laws of R76. -/
def Obligations.CodecLawsHold : Prop :=
  (∀ v : U32, v.toNat < 2 ^ 24 → unpackPayload (packPayload v) = v)
    ∧ (∀ v : U32, unpackPayload (packPayload v) = v &&& 0x00FFFFFF)
    ∧ (∀ b : Byte × Byte × Byte, packPayload (unpackPayload b) = b)
    ∧ (∀ (op : Op) (a : U32), a.toNat < 64 →
        (encodeHeader op a).extractLsb' 6 2 = (opBits op).extractLsb' 6 2
          ∧ ((encodeHeader op a).extractLsb' 0 6).toNat = a.toNat)
    ∧ (∀ (op op' : Op) (a a' : U32), a.toNat < 64 → a'.toNat < 64 →
        encodeHeader op a = encodeHeader op' a' → op = op' ∧ a = a')

/-- The header of any address the caller has: OP in bits 7:6 with the values of R54, `a[5:0]` in bits 5:0 (R69). -/
def Obligations.HeaderHoldsOpAndLowAddressBits : Prop :=
  ∀ a : U32,
    encodeHeader .write a = 0#2 ++ a.extractLsb' 0 6 ∧ encodeHeader .read a = 1#2 ++ a.extractLsb' 0 6
      ∧ encodeHeader .readAndClear a = 2#2 ++ a.extractLsb' 0 6
      ∧ encodeHeader .deviceInfo a = 3#2 ++ a.extractLsb' 0 6

/-- The request of every transaction: its frame word is `{OP, ADDR, PAYLOAD}`, and its length is the one R58 fixes, 2 bytes only for
a ROM read in the TWO shape. -/
def Obligations.RequestFramesHaveTheirLayout : Prop :=
  ∀ (shape : Shape) (op : Op) (a : Addr) (v : U32),
    (requestFrame shape op a v).length = exchangeLength shape op
      ∧ (exchangeLength shape op = 4 →
          frameWord (requestFrame shape op a v) = ((opBits op).extractLsb' 6 2 ++ a ++ v.extractLsb' 0 24).toNat)
      ∧ (exchangeLength shape op = 2 → frameWord (requestFrame shape op a v) = (3#2 ++ a ++ 0#8).toNat)

/-- The wire carries the bits of the frame word from its most significant bit down (R36, R37). -/
def Obligations.WireCarriesFrameWordMostSignificantFirst : Prop :=
  ∀ bytes : List Byte,
    wireBits bytes = (List.range (8 * bytes.length)).map fun i => (frameWord bytes).testBit (8 * bytes.length - 1 - i)

/-! ### The register-access commands -/

/-- IS_WRITABLE (R85, R33): the range check alone, in every state, FAULTED or not. -/
def Obligations.IsWritableAnswersTheRangeCheck : Prop :=
  ∀ (reg : Addr) (s : State),
    exec (.isWritable reg) s
      = .next (completed .ok 0 (decide (0x01 ≤ reg.toNat ∧ reg.toNat ≤ 0x16 ∨ reg.toNat = 0x3F)) s)

/-- GET_GSB (R86): the cached byte with flag 1 once there is one, 0 with flag 0 before; in every state, FAULTED or not. -/
def Obligations.GetGsbAnswersTheCachedByte : Prop :=
  ∀ s : State,
    (s.gsbValid = true → exec .getGsb s = .next (completed .ok (s.gsb.setWidth 32) true s))
      ∧ (s.gsbValid = false → exec .getGsb s = .next (completed .ok 0 false s))

/-- A reserved code (R61): 0x10–0x1F, with any operands; INVALID_SELECTOR with the code in RES.data, no frame, nothing else changed,
FAULTED or not. -/
def Obligations.ReservedCodeAnswersInvalidSelector : Prop :=
  ∀ (shape : Shape) (code : BitVec 5) (ops : Operands) (s : State),
    (16 ≤ code.toNat → decode shape (.command (code.setWidth 8) ops) = .ok (.reserved code))
      ∧ exec (.reserved code) s = .next (completed .invalidSelector (code.setWidth 32) false s)

/-- WRITE answered Ok (R79, R87): one frame with OP = 00 and DATA[23:0]; RES is (OK, 0, 0) and the response payload is ignored. -/
def Obligations.WriteSendsItsFrame : Prop :=
  ∀ (reg : Addr) (data : U32) (s : State) (b0 b1 b2 b3 : Byte),
    ready s → (s.cfg.enforceWritable = true → writable reg = true) →
    deviceAnswer (wire 0 reg (data.setWidth 24)) s = .ok b0 b1 b2 b3 →
    exec (.write reg data) s = .next (completed .ok 0 false (replied4 (wire 0 reg (data.setWidth 24)) b0 b1 b2 b3 s))

/-- READ answered Ok (R80): one frame with OP = 01 and a zero payload, at any address; RES.data is the payload received. -/
def Obligations.ReadReturnsThePayload : Prop :=
  ∀ (reg : Addr) (s : State) (b0 b1 b2 b3 : Byte),
    ready s → deviceAnswer (wire 1 reg 0) s = .ok b0 b1 b2 b3 →
    exec (.read reg) s = .next (completed .ok (payload b1 b2 b3) false (replied4 (wire 1 reg 0) b0 b1 b2 b3 s))

/-- MODIFY answered Ok twice (R81): a READ frame, then at once a WRITE frame with the merged value. -/
def Obligations.ModifyReadsMergesAndWrites : Prop :=
  ∀ (reg : Addr) (mask data : U32) (s : State) (b0 b1 b2 b3 c0 c1 c2 c3 : Byte),
    ready s → (s.cfg.enforceWritable = true → writable reg = true) →
    rewriteAnswered reg (merged mask data (payload b1 b2 b3)) b0 b1 b2 b3 c0 c1 c2 c3 s →
    exec (.modify reg mask data) s
      = .next (completed .ok 0 false (rewritten reg (merged mask data (payload b1 b2 b3)) b0 b1 b2 b3 c0 c1 c2 c3 s))

/-- MODIFY and a transport failure (R81, R108): a failed READ leaves no WRITE frame; after a failed WRITE the block is FAULTED with
the WRITE's header in RES.data and GSB from the READ. -/
def Obligations.ModifyStopsAtItsFailedFrame : Prop :=
  ∀ (reg : Addr) (mask data : U32) (s : State),
    ready s → (s.cfg.enforceWritable = true → writable reg = true) →
    (deviceAnswer (wire 1 reg 0) s = .fail →
        exec (.modify reg mask data) s = .next (failed (wire 1 reg 0) (1#2 ++ reg) s))
      ∧ ∀ b0 b1 b2 b3 : Byte,
          deviceAnswer (wire 1 reg 0) s = .ok b0 b1 b2 b3 →
          deviceAnswer (wire 0 reg ((merged mask data (payload b1 b2 b3)).setWidth 24))
            (replied4 (wire 1 reg 0) b0 b1 b2 b3 s) = .fail →
          exec (.modify reg mask data) s
            = .next (failed (wire 0 reg ((merged mask data (payload b1 b2 b3)).setWidth 24)) (0#2 ++ reg)
                { replied4 (wire 1 reg 0) b0 b1 b2 b3 s with
                  cur := { (replied4 (wire 1 reg 0) b0 b1 b2 b3 s).cur with
                    tmp := merged mask data (payload b1 b2 b3) } })

/-- RAC answered Ok (R82): one frame with OP = 10 and MASK[23:0], at any address; RES.data is the payload received. -/
def Obligations.RacSendsTheMaskAndReturnsThePayload : Prop :=
  ∀ (reg : Addr) (mask : U32) (s : State) (b0 b1 b2 b3 : Byte),
    ready s → deviceAnswer (wire 2 reg (mask.setWidth 24)) s = .ok b0 b1 b2 b3 →
    exec (.rac reg mask) s
      = .next (completed .ok (payload b1 b2 b3) false (replied4 (wire 2 reg (mask.setWidth 24)) b0 b1 b2 b3 s))

/-- RAC_LIST answered Ok (R83): one READ_AND_CLEAR frame for each entry, in list order, neither merged nor reordered; the empty list
issues none. -/
def Obligations.RacListSendsOneFramePerEntry : Prop :=
  ∀ (list : List (Addr × U32)) (s t : State),
    ready s → racReplied list s = some t →
    exec (.racList list) s = .next (completed .ok 0 false t)

/-- READ_ROM answered Ok (R84): the frame of the configured shape; RES.data is the configured response byte. -/
def Obligations.ReadRomReturnsTheConfiguredByte : Prop :=
  ∀ (a : Addr) (s : State) (b0 b1 b2 b3 : Byte), ready s →
    (s.cfg.romShape = .two → deviceAnswer (wireRom2 a) s = .ok b0 b1 b2 b3 →
        exec (.readRom a) s = .next (completed .ok (b1.setWidth 32) false (replied2 (wireRom2 a) b0 b1 s)))
      ∧ (s.cfg.romShape = .four → s.cfg.romDataByte4 = .three → deviceAnswer (wire 3 a 0) s = .ok b0 b1 b2 b3 →
        exec (.readRom a) s = .next (completed .ok (b3.setWidth 32) false (replied4 (wire 3 a 0) b0 b1 b2 b3 s)))
      ∧ (s.cfg.romShape = .four → s.cfg.romDataByte4 = .one → deviceAnswer (wire 3 a 0) s = .ok b0 b1 b2 b3 →
        exec (.readRom a) s = .next (completed .ok (b1.setWidth 32) false (replied4 (wire 3 a 0) b0 b1 b2 b3 s)))

/-! ### The watchdog controller -/

/-- WD_CHECK (R91, R92): not expired, nothing but the sample; expired and STOPPED, WD_LAST is the sample and no frame goes out; expired
and RUNNING, WD_LAST is the sample and the trigger bit is toggled. The time since WD_LAST is taken modulo 2^64. -/
def Obligations.WdCheckRefreshesWhenExpiredAndRunning : Prop :=
  ∀ s : State, ready s →
    ((clockSample s - s.wdLast).toNat < s.wdInterval.toNat →
        exec .wdCheck s = .next (completed .ok 0 false (checkSampled s)))
      ∧ (s.wdInterval.toNat ≤ (clockSample s - s.wdLast).toNat → s.wdRun = false →
        exec .wdCheck s = .next (completed .ok 0 true { checkSampled s with wdLast := clockSample s }))
      ∧ (∀ b0 b1 b2 b3 c0 c1 c2 c3 : Byte,
          s.wdInterval.toNat ≤ (clockSample s - s.wdLast).toNat → s.wdRun = true →
          (s.cfg.enforceWritable = true → writable (trigReg s.cfg) = true) →
          rewriteAnswered (trigReg s.cfg) (payload b1 b2 b3 ^^^ trigMask s.cfg) b0 b1 b2 b3 c0 c1 c2 c3
            { checkSampled s with wdLast := clockSample s } →
          exec .wdCheck s = .next (completed .ok 0 true
            (rewritten (trigReg s.cfg) (payload b1 b2 b3 ^^^ trigMask s.cfg) b0 b1 b2 b3 c0 c1 c2 c3
              { checkSampled s with wdLast := clockSample s })))

/-- WD_REFRESH (R93, R94): exactly a READ and a WRITE of TRIG_REG with the trigger bit flipped, RUNNING or STOPPED; WD_LAST is not
changed. -/
def Obligations.WdRefreshTogglesTheTriggerBit : Prop :=
  ∀ (s : State) (b0 b1 b2 b3 c0 c1 c2 c3 : Byte),
    ready s → (s.cfg.enforceWritable = true → writable (trigReg s.cfg) = true) →
    rewriteAnswered (trigReg s.cfg) (payload b1 b2 b3 ^^^ trigMask s.cfg) b0 b1 b2 b3 c0 c1 c2 c3 s →
    exec .wdRefresh s
      = .next (completed .ok 0 false
          (rewritten (trigReg s.cfg) (payload b1 b2 b3 ^^^ trigMask s.cfg) b0 b1 b2 b3 c0 c1 c2 c3 s))

/-- WD_SET_INTERVAL with a code 0..3 (R96): the enable bit of register 0x3F first, then the selector field, then WD_INTERVAL from the
table and WD_LAST from the clock. -/
def Obligations.WdSetIntervalProgramsAndRestarts : Prop :=
  ∀ (arg : U32) (s u v : State) (b0 b1 b2 b3 c0 c1 c2 c3 d0 d1 d2 d3 e0 e1 e2 e3 : Byte),
    ready s → arg.toNat ≤ 3 → cfgOk s.cfg = true →
    rewriteAnswered 0x3F (merged s.cfg.wdCfgEnMask s.cfg.wdCfgEnMask (payload b1 b2 b3)) b0 b1 b2 b3 c0 c1 c2 c3 s →
    u = rewritten 0x3F (merged s.cfg.wdCfgEnMask s.cfg.wdCfgEnMask (payload b1 b2 b3)) b0 b1 b2 b3 c0 c1 c2 c3 s →
    rewriteAnswered s.cfg.wdSelReg
      (merged s.cfg.wdSelMask (arg <<< s.cfg.wdSelPos.toNat) (payload d1 d2 d3)) d0 d1 d2 d3 e0 e1 e2 e3 u →
    v = rewritten s.cfg.wdSelReg
      (merged s.cfg.wdSelMask (arg <<< s.cfg.wdSelPos.toNat) (payload d1 d2 d3)) d0 d1 d2 d3 e0 e1 e2 e3 u →
    exec (.wdSetInterval arg) s
      = .next (completed .ok 0 false
          { sampled v with
            wdInterval := tableGet s.cfg.wdIntervalMs (BitVec.ofNat 2 arg.toNat)
            wdLast := clockSample v })

/-- WD_ENABLE and WD_DISABLE (R97, R98): WD_RUN and RES alone. -/
def Obligations.EnableAndDisableSetTheRunningFlag : Prop :=
  ∀ s : State, s.faulted = false →
    exec .wdEnable s = .next (completed .ok 0 false { s with wdRun := true })
      ∧ exec .wdDisable s = .next (completed .ok 0 false { s with wdRun := false })

/-- MODE_SET (R99): the mode field is rewritten; STANDBY1 and STANDBY2 stop the controller, ACTIVE leaves it as it was. -/
def Obligations.ModeSetWritesTheModeAndStopsForStandby : Prop :=
  ∀ (s : State) (b0 b1 b2 b3 c0 c1 c2 c3 : Byte), ready s → cfgOk s.cfg = true →
    (rewriteAnswered s.cfg.modeReg (merged s.cfg.modeMask s.cfg.modeValActive (payload b1 b2 b3))
        b0 b1 b2 b3 c0 c1 c2 c3 s →
      exec (.modeSet 0) s = .next (completed .ok 0 false
        (rewritten s.cfg.modeReg (merged s.cfg.modeMask s.cfg.modeValActive (payload b1 b2 b3))
          b0 b1 b2 b3 c0 c1 c2 c3 s)))
    ∧ (rewriteAnswered s.cfg.modeReg (merged s.cfg.modeMask s.cfg.modeValStandby1 (payload b1 b2 b3))
        b0 b1 b2 b3 c0 c1 c2 c3 s →
      exec (.modeSet 1) s = .next (completed .ok 0 false
        { rewritten s.cfg.modeReg (merged s.cfg.modeMask s.cfg.modeValStandby1 (payload b1 b2 b3))
            b0 b1 b2 b3 c0 c1 c2 c3 s with wdRun := false }))
    ∧ (rewriteAnswered s.cfg.modeReg (merged s.cfg.modeMask s.cfg.modeValStandby2 (payload b1 b2 b3))
        b0 b1 b2 b3 c0 c1 c2 c3 s →
      exec (.modeSet 2) s = .next (completed .ok 0 false
        { rewritten s.cfg.modeReg (merged s.cfg.modeMask s.cfg.modeValStandby2 (payload b1 b2 b3))
            b0 b1 b2 b3 c0 c1 c2 c3 s with wdRun := false }))

/-- MAINTAIN while STOPPED (R92, R95, R100), with one scripted sample for each millisecond, none below the one before: exactly ARG
checks, each followed by a sleep, no frame; WD_LAST is the last expiry found. -/
def Obligations.MaintainWhileStoppedChecksAndSleeps : Prop :=
  ∀ (arg : U32) (s : State) (cs : List U64),
    ready s → s.wdRun = false → s.env.samples = cs → cs.length = arg.toNat →
    (s.env.clock :: cs).Pairwise (· ≤ ·) →
    exec (.maintain arg) s
      = .next (completed .ok 0 false
          { s with
            wdLast := lastExpiry s.wdInterval s.wdLast cs
            cur := { s.cur with i := arg, now := cs.getLastD s.cur.now, step := s.cur.step + 2 * arg.toNat }
            env := { s.env with
              samples := []
              clock := cs.getLastD s.env.clock
              trace := s.env.trace ++ cs.flatMap fun c => [.sample c, .sleep] } })

/-- MAINTAIN, RUNNING or STOPPED, when the device answers every exchange Ok (R100, R103 (c), R104): it completes with (OK, 0, 0) after
exactly ARG checks with a sleep after each; each check's refresh goes out at exactly the expiries found while RUNNING, and the
port shows nothing else. -/
def Obligations.MaintainRefreshesAtExactlyItsExpiries : Prop :=
  ∀ (arg : U32) (s : State),
    ready s → cfgOk s.cfg = true → 2 * arg.toNat ≤ s.env.answers.length →
    (∀ a ∈ s.env.answers, ∃ b : Rx4, a = rxAnswer b) →
    ∃ (t : State) (ks : List CheckSeen), exec (.maintain arg) s = .next t
      ∧ ks.length = arg.toNat ∧ checksOwed s ks ∧ s.env.answers = ks.flatMap checkAnswers ++ t.env.answers
      ∧ t.env.trace = s.env.trace ++ ks.flatMap (iterationEvents s.cfg) ++ [.result ⟨.ok, 0, false⟩]
      ∧ t.wdLast = lastExpiry s.wdInterval s.wdLast (ks.map CheckSeen.now)
      ∧ t.res = ⟨.ok, 0, false⟩ ∧ t.cur.busy = false ∧ t.cur.i = arg ∧ t.faulted = false

/-- READ_AVG while STOPPED (R101), with five scripted samples and answers: five READ frames with a clock sample after each; RES.data
is the floor of the fields' sum over five, and nothing but the sequencer's locals, GSB and WD_LAST changes in the block. -/
def Obligations.ReadAvgReturnsTheFloorOfTheMean : Prop :=
  ∀ (reg : Addr) (mask arg : U32) (s : State) (bs : List Rx4) (cs : List U64)
    (more : List Answer) (g p1 p2 p3 : Byte) (c : U64),
    ready s → arg.toNat ≤ 31 → s.wdRun = false → bs.length = 5 → cs.length = 5 → s.env.samples = cs →
    bs.getLast? = some (g, p1, p2, p3) → cs.getLast? = some c →
    s.env.answers = bs.map rxAnswer ++ more →
    (s.env.clock :: cs).Pairwise (· ≤ ·) →
    ∃ sum mean : U32,
      sum.toNat = (bs.map (fieldOf mask arg)).sum
      ∧ mean.toNat = sum.toNat / 5
      ∧ exec (.readAvg reg mask arg) s
        = .next (completed .ok mean false
          { s with
            gsb := g
            gsbValid := true
            cs := false
            rxData := payload p1 p2 p3
            wdLast := lastExpiry s.wdInterval s.wdLast cs
            cur := { s.cur with sum := sum, i := 5, now := c, step := s.cur.step + 10 }
            env := { s.env with
              answers := more
              samples := []
              clock := c
              trace := s.env.trace
                ++ (bs.zip cs).flatMap fun r => averageEvents s.cfg reg ⟨r.1, ⟨r.2, none⟩⟩ } })

/-- READ_AVG, RUNNING or STOPPED, when the device answers every exchange Ok (R101, R103 (c)): exactly five READ frames of REG, a check
after each, its refresh going out at exactly the expiries found while RUNNING, and nothing else on the port; CUR.sum is the sum of
the five fields received and RES.data its floor over five. -/
def Obligations.ReadAvgAveragesFiveReadsWithAChecksRefreshAfterEach : Prop :=
  ∀ (reg : Addr) (mask arg : U32) (s : State),
    ready s → cfgOk s.cfg = true → arg.toNat ≤ 31 → 15 ≤ s.env.answers.length →
    (∀ a ∈ s.env.answers, ∃ b : Rx4, a = rxAnswer b) →
    ∃ (t : State) (rs : List AverageSeen) (mean : U32), exec (.readAvg reg mask arg) s = .next t
      ∧ rs.length = 5 ∧ checksOwed s (rs.map AverageSeen.check)
      ∧ s.env.answers = rs.flatMap averageAnswers ++ t.env.answers
      ∧ t.cur.sum.toNat = (rs.map fun r => fieldOf mask arg r.read).sum
      ∧ mean.toNat = (rs.map fun r => fieldOf mask arg r.read).sum / 5
      ∧ t.env.trace = s.env.trace ++ rs.flatMap (averageEvents s.cfg reg) ++ [.result ⟨.ok, mean, false⟩]
      ∧ t.wdLast = lastExpiry s.wdInterval s.wdLast (rs.map fun r => r.check.now)
      ∧ t.res = ⟨.ok, mean, false⟩ ∧ t.cur.busy = false ∧ t.cur.i = 5 ∧ t.faulted = false

/-- Timestamp updates and refreshes lie at least WD_INTERVAL apart (R103 (a)), whatever the device answers, when WD_LAST is no later
than the clock (R20): an instruction that moves WD_LAST without setting a new interval moves it at least WD_INTERVAL on, and the
clock samples at which a MAINTAIN puts a refresh on the port lie pairwise, and from WD_LAST before it, at least WD_INTERVAL apart. -/
def Obligations.ExpiriesLieAnIntervalApart : Prop :=
  ∀ s : State, s.wdLast ≤ s.env.clock →
    (∀ (i : Instr) (t : State), (∀ arg, i ≠ .wdSetInterval arg) → exec i s = .next t → t.wdLast ≠ s.wdLast →
        s.wdLast.toNat + s.wdInterval.toNat ≤ t.wdLast.toNat)
      ∧ ∀ arg : U32, ∃ (t : State) (es : List Event), exec (.maintain arg) s = .next t
          ∧ t.env.trace = s.env.trace ++ es
          ∧ (s.wdLast :: refreshedAt (trigReg s.cfg) es).Pairwise fun a b => a.toNat + s.wdInterval.toNat ≤ b.toNat

/-- A refresh follows in time (R103 (b)): in a MAINTAIN while RUNNING whose clock samples follow each other (the first one WD_LAST) by
at most `gap`, WD_LAST before it, and every refresh it puts on the port, is followed by a refresh less than WD_INTERVAL plus `gap`
later, if some sample lies WD_INTERVAL or more after it; whatever the device answers, when WD_LAST is no later than the clock. -/
def Obligations.NextRefreshComesWithinIntervalAndSpacing : Prop :=
  ∀ (arg : U32) (s : State), ready s → cfgOk s.cfg = true → s.wdRun = true → s.wdInterval ≠ 0 → s.wdLast ≤ s.env.clock →
    ∃ (t : State) (es : List Event), exec (.maintain arg) s = .next t ∧ t.env.trace = s.env.trace ++ es
      ∧ ∀ gap : Nat, (s.wdLast :: samplesOf es).IsChain (fun a b => b.toNat ≤ a.toNat + gap) →
          ∀ c ∈ s.wdLast :: refreshedAt (trigReg s.cfg) es,
            (∃ d ∈ samplesOf es, c.toNat + s.wdInterval.toNat ≤ d.toNat) →
            ∃ c' ∈ refreshedAt (trigReg s.cfg) es,
              c.toNat + s.wdInterval.toNat ≤ c'.toNat ∧ c'.toNat < c.toNat + s.wdInterval.toNat + gap

/-! ### Refusals, faults and hangs -/

/-- Operands out of range (R63, R107): INVALID_SELECTOR with ARG in RES.data, no frame, nothing else changed. -/
def Obligations.OutOfRangeOperandsAreRefused : Prop :=
  ∀ (reg : Addr) (mask arg : U32) (s : State), s.faulted = false →
    (3 < arg.toNat → exec (.wdSetInterval arg) s = .next (completed .invalidSelector arg false s))
      ∧ (2 < arg.toNat → exec (.modeSet arg) s = .next (completed .invalidSelector arg false s))
      ∧ (31 < arg.toNat → exec (.readAvg reg mask arg) s = .next (completed .invalidSelector arg false s))

/-- A write to a non-writable address while CFG.ENFORCE_WRITABLE is true (R106): NOT_WRITABLE with the address in RES.data, no frame,
nothing else changed. -/
def Obligations.WritesToNonWritableAddressesAreRefused : Prop :=
  ∀ (reg : Addr) (mask data : U32) (s : State),
    s.faulted = false → s.cfg.enforceWritable = true → writable reg = false →
    exec (.write reg data) s = .next (completed .notWritable (reg.setWidth 32) false s)
      ∧ exec (.modify reg mask data) s = .next (completed .notWritable (reg.setWidth 32) false s)

/-- The watchdog and mode commands cannot end in NOT_WRITABLE under a configuration that passes R122 (R106, R122). A WRITE frame
presented by itself can, as WRITE does (log 9). -/
def Obligations.WatchdogCommandsNeverEndNotWritable : Prop :=
  ∀ (i : Instr) (s t : State), cfgOk s.cfg = true → s.res.status ≠ .notWritable →
    (∀ reg data, i ≠ .write reg data) → (∀ reg mask data, i ≠ .modify reg mask data) →
    (∀ addr payload, i ≠ .fWrite addr payload) → exec i s = .next t → t.res.status ≠ .notWritable

/-- While FAULTED (R111): IS_WRITABLE, GET_GSB and a reserved code answer as ever, every other command ends with (FAULTED, 0, 0), and
nothing else changes. -/
def Obligations.FaultedBlockRefusesCommands : Prop :=
  ∀ (i : Instr) (s : State), s.faulted = true →
    (refusedWhenFaulted i = true → exec i s = .next (completed .faulted 0 false s))
      ∧ (∀ reg, exec (.isWritable reg) s = .next (completed .ok 0 (writable reg) s))
      ∧ exec .getGsb s = .next (completed .ok (if s.gsbValid then s.gsb.setWidth 32 else 0) s.gsbValid s)
      ∧ ∀ code, exec (.reserved code) s = .next (completed .invalidSelector (code.setWidth 32) false s)

/-- The model's choice (log 9, log 10): a FAULTED block neither sends a frame presented by itself nor takes in a response. -/
def Obligations.FaultedBlockIgnoresFrames : Prop :=
  ∀ (i : Instr) (s : State), s.faulted = true → isFrame i = true → exec i s = .next s

/-- A TransportFault, at whichever frame of whichever instruction (R108): the failed frame is the last thing on the port, its header
byte stands in RES.data, and only then is FAULTED set. -/
def Obligations.TransportFaultEndsTheCommandAtItsFrame : Prop :=
  ∀ (i : Instr) (s t : State), s.faulted = false → exec i s = .next t → t.faulted = true →
    ∃ (es : List Event) (mode : SpiMode) (header : Byte) (rest : List Byte),
      t.env.trace = s.env.trace ++ es
          ++ [.select, .frame mode (header :: rest) .fail, .deselect, .result ⟨.transportFault, header.setWidth 32, false⟩]
        ∧ t.res = ⟨.transportFault, header.setWidth 32, false⟩ ∧ t.cur.busy = false ∧ t.cs = false
        ∧ (∀ m tx, .frame m tx .fail ∉ es) ∧ (∀ r, .result r ∉ es)

/-- The first frame of WRITE, READ, RAC, RAC_LIST, READ_ROM, WD_REFRESH, WD_SET_INTERVAL, MODE_SET or READ_AVG fails (R108, R78): nothing
of the command happens but that frame, the fault, and in READ_AVG its locals' start (R101). A failing MODIFY and a failing
refresh of WD_CHECK have statements of their own. -/
def Obligations.FirstFrameFailureLeavesOnlyTheFault : Prop :=
  ∀ (reg : Addr) (mask data arg : U32) (rest : List (Addr × U32)) (s : State), ready s → cfgOk s.cfg = true →
    ((s.cfg.enforceWritable = true → writable reg = true) → deviceAnswer (wire 0 reg (data.setWidth 24)) s = .fail →
        exec (.write reg data) s = .next (failed (wire 0 reg (data.setWidth 24)) (0#2 ++ reg) s))
      ∧ (deviceAnswer (wire 1 reg 0) s = .fail → exec (.read reg) s = .next (failed (wire 1 reg 0) (1#2 ++ reg) s))
      ∧ (deviceAnswer (wire 2 reg (mask.setWidth 24)) s = .fail →
        exec (.rac reg mask) s = .next (failed (wire 2 reg (mask.setWidth 24)) (2#2 ++ reg) s)
          ∧ exec (.racList ((reg, mask) :: rest)) s = .next (failed (wire 2 reg (mask.setWidth 24)) (2#2 ++ reg) s))
      ∧ (s.cfg.romShape = .four → deviceAnswer (wire 3 reg 0) s = .fail →
        exec (.readRom reg) s = .next (failed (wire 3 reg 0) (3#2 ++ reg) s))
      ∧ (s.cfg.romShape = .two → deviceAnswer (wireRom2 reg) s = .fail →
        exec (.readRom reg) s = .next (failed (wireRom2 reg) (3#2 ++ reg) s))
      ∧ (deviceAnswer (wire 1 (trigReg s.cfg) 0) s = .fail →
        exec .wdRefresh s = .next (failed (wire 1 (trigReg s.cfg) 0) (1#2 ++ trigReg s.cfg) s))
      ∧ (arg.toNat ≤ 3 → deviceAnswer (wire 1 0x3F 0) s = .fail →
        exec (.wdSetInterval arg) s = .next (failed (wire 1 0x3F 0) (1#2 ++ 0x3F#6) s))
      ∧ (arg.toNat ≤ 2 → deviceAnswer (wire 1 s.cfg.modeReg 0) s = .fail →
        exec (.modeSet arg) s = .next (failed (wire 1 s.cfg.modeReg 0) (1#2 ++ s.cfg.modeReg) s))
      ∧ (arg.toNat ≤ 31 → deviceAnswer (wire 1 reg 0) s = .fail →
        exec (.readAvg reg mask arg) s
          = .next (failed (wire 1 reg 0) (1#2 ++ reg) { s with cur := { s.cur with sum := 0, i := 1 } }))

/-- A WD_SET_INTERVAL that fails or hangs in any of its frames, and that no reset of the host strikes, leaves WD_INTERVAL and WD_LAST as
they were (R96); a MODE_SET that fails or does not end leaves WD_RUN as it was (R99). -/
def Obligations.FailedSettingKeepsTheWatchdogState : Prop :=
  ∀ (arg : U32) (s t : State), t.faulted = true ∨ t.cur.busy = true →
    (s.env.abandonAfter = none → exec (.wdSetInterval arg) s = .next t → t.wdInterval = s.wdInterval ∧ t.wdLast = s.wdLast)
      ∧ (exec (.modeSet arg) s = .next t → t.wdRun = s.wdRun)

/-- A refresh that fails inside a check, in its READ or in its WRITE (R92, R108): WD_LAST has already been updated; after a failed
WRITE, GSB is the READ's and CUR.tmp the toggled value. -/
def Obligations.FailedRefreshKeepsTheNewTimestamp : Prop :=
  ∀ s : State, ready s → cfgOk s.cfg = true → s.wdRun = true →
    s.wdInterval.toNat ≤ (clockSample s - s.wdLast).toNat →
    (deviceAnswer (wire 1 (trigReg s.cfg) 0) { checkSampled s with wdLast := clockSample s } = .fail →
      exec .wdCheck s
        = .next (failed (wire 1 (trigReg s.cfg) 0) (1#2 ++ trigReg s.cfg) { checkSampled s with wdLast := clockSample s }))
    ∧ ∀ b : Rx4,
        deviceAnswer (wire 1 (trigReg s.cfg) 0) { checkSampled s with wdLast := clockSample s } = rxAnswer b →
        deviceAnswer (wire 0 (trigReg s.cfg) ((rxPayload b ^^^ trigMask s.cfg).setWidth 24))
          (replied4 (wire 1 (trigReg s.cfg) 0) b.1 b.2.1 b.2.2.1 b.2.2.2
            { checkSampled s with wdLast := clockSample s }) = .fail →
        ∃ u : State,
          u = replied4 (wire 1 (trigReg s.cfg) 0) b.1 b.2.1 b.2.2.1 b.2.2.2 { checkSampled s with wdLast := clockSample s }
          ∧ exec .wdCheck s
            = .next (failed (wire 0 (trigReg s.cfg) ((rxPayload b ^^^ trigMask s.cfg).setWidth 24)) (0#2 ++ trigReg s.cfg)
                { u with cur := { u.cur with tmp := rxPayload b ^^^ trigMask s.cfg } })

/-- An instruction that does not end (R109, R135; log 7, log 8): when the host's reset does not strike, the only reason is an exchange
that never returned: it is the last thing on the port, RES is not written, CS shows it where the block drives CS (in AUTO mode CS
stays 0, the model's inference, log 16), and there is no further step until the host resets. A command is asked nothing of
CUR.busy, which its acceptance has set (R24); a frame form is accepted by no command, so it starts with CUR.busy = 0 (log 9). -/
def Obligations.UnfinishedCommandIsAHungExchange : Prop :=
  ∀ (i : Instr) (s t : State), s.env.abandonAfter = none → (isFrame i = true → s.cur.busy = false) →
    exec i s = .next t → t.cur.busy = true →
    t.res = s.res ∧ t.faulted = false ∧ t.cs = drivesCs s.cfg
      ∧ (∃ (es : List Event) (tx : List Byte),
          t.env.trace = s.env.trace ++ es ++ [.select, .frame (spiMode s.cfg) tx .never])
      ∧ ((∀ cfg more, t.env.pending ≠ .reset cfg :: more) → step t = .fault .stuck)

/-- The host's reset strikes before a command's first exchange (R121, R136; log 8): the command is abandoned, busy, with no frame and
no result; the host's reset move then gives a clean start, after which the next strike listed is due. -/
def Obligations.ResetStrikeAbandonsTheCommand : Prop :=
  ∀ (reg : Addr) (s : State), s.faulted = false → s.env.abandonAfter = some 0 →
    exec (.read reg) s = .next { s with cur := { s.cur with busy := true } }
      ∧ exec .wdCheck s = .next { s with cur := { s.cur with busy := true } }
      ∧ ∀ (cfg : Cfg) (more : List Move), s.env.pending = .reset cfg :: more → cfgOk cfg = true →
          ∃ t : State, step { s with cur := { s.cur with busy := true } } = .next t ∧ cleanStart t ∧ t.cfg = cfg
            ∧ t.env.pending = more ∧ t.env.trace = s.env.trace ++ [.reset]
            ∧ t.env.abandonAfter = s.env.resetStrikes.headD none ∧ t.env.resetStrikes = s.env.resetStrikes.tail

/-- The host's reset can strike a MAINTAIN at each of its primitives, asleep or about to check (R136: "reset at any time"; R95, R100,
log 8), STOPPED here, with one scripted sample for each millisecond: exactly the checks and sleeps before the strike have happened,
no result is written, and the block stays busy for the reset move. -/
def Obligations.ResetStrikesMaintainAtAnyPrimitive : Prop :=
  ∀ (arg : U32) (s : State) (cs : List U64) (k : Nat),
    s.faulted = false → s.env.abandonAfter = some k → k < 2 * arg.toNat →
    s.wdRun = false → s.env.samples = cs → cs.length = arg.toNat → (s.env.clock :: cs).Pairwise (· ≤ ·) →
    ∃ t : State, exec (.maintain arg) s = .next t
      ∧ t.env.trace = s.env.trace ++ (cs.flatMap fun c => [.sample c, .sleep]).take k
      ∧ t.wdLast = lastExpiry s.wdInterval s.wdLast (cs.take ((k + 1) / 2))
      ∧ t.cur.busy = true ∧ t.res = s.res ∧ t.cs = s.cs ∧ t.faulted = false
      ∧ t.env.pending = s.env.pending ∧ t.env.resetStrikes = s.env.resetStrikes

/-! ### Frames run by themselves -/

/-- The model's choice (log 9): a request frame run by itself, answered Ok, is one transaction as the block makes it (R52, R54, R78):
dummy bits go out as zero (R55, R56), a ROM read has the length CFG.ROM_SHAPE fixes (R58), a WRITE passes the writability check or
is refused as WRITE is (R59, R87), and a good exchange writes nothing in RES. -/
def Obligations.RequestFormsAreOneTransaction : Prop :=
  ∀ (a : Addr) (p : U24) (d : Byte) (s : State) (b0 b1 b2 b3 : Byte), ready s → s.cur.busy = false →
    ((s.cfg.enforceWritable = true → writable a = true) → deviceAnswer (wire 0 a p) s = .ok b0 b1 b2 b3 →
        exec (.fWrite a p) s = .next (replied4 (wire 0 a p) b0 b1 b2 b3 s))
      ∧ (s.cfg.enforceWritable = true → writable a = false →
        exec (.fWrite a p) s = .next (completed .notWritable (a.setWidth 32) false s))
      ∧ (deviceAnswer (wire 1 a 0) s = .ok b0 b1 b2 b3 →
        exec (.fRead a p) s = .next (replied4 (wire 1 a 0) b0 b1 b2 b3 s))
      ∧ (deviceAnswer (wire 2 a p) s = .ok b0 b1 b2 b3 →
        exec (.fReadAndClear a p) s = .next (replied4 (wire 2 a p) b0 b1 b2 b3 s))
      ∧ (s.cfg.romShape = .four → deviceAnswer (wire 3 a 0) s = .ok b0 b1 b2 b3 →
        exec (.fDeviceInfo a p) s = .next (replied4 (wire 3 a 0) b0 b1 b2 b3 s)
          ∧ exec (.fDeviceInfo2 a d) s = .next (replied4 (wire 3 a 0) b0 b1 b2 b3 s))
      ∧ (s.cfg.romShape = .two → deviceAnswer (wireRom2 a) s = .ok b0 b1 b2 b3 →
        exec (.fDeviceInfo a p) s = .next (replied2 (wireRom2 a) b0 b1 s)
          ∧ exec (.fDeviceInfo2 a d) s = .next (replied2 (wireRom2 a) b0 b1 s))

/-- The model's choice (log 10): a response received by itself is taken in as in an exchange: GSB is byte 0, GSB_VALID is 1, the payload is handed on (R53, R57, R74, R75, R78). -/
def Obligations.ResponseFormsAreCached : Prop :=
  ∀ (g e : Byte) (d : U24) (s : State), s.faulted = false →
    exec (.fResponse4 g d) s
        = .next { s with
            gsb := g
            gsbValid := true
            rxData := d.setWidth 32
            env := { s.env with
              trace := s.env.trace
                ++ [.response [g, d.extractLsb' 16 8, d.extractLsb' 8 8, d.extractLsb' 0 8]] } }
      ∧ exec (.fResponse2 g e) s
        = .next { s with
            gsb := g
            gsbValid := true
            rxData := e.setWidth 32
            env := { s.env with trace := s.env.trace ++ [.response [g, e]] } }

/-! ### Steps -/

/-- A step runs the instruction the decoder reads, under the configured ROM shape, from what the host presents: a command after its
code and operands are copied into CUR (R24, R60, R136), also where it is then refused (the model's inference, log 13). That a frame
presented by itself is run at all, with only the move taken, is the model's choice: the spec's host presents commands alone
(log 9 for a request, log 10 for a response). -/
def Obligations.StepRunsWhatIsPresented : Prop :=
  ∀ (s : State) (p : Presented) (more : List Move) (i : Instr),
    s.env.pending = .present p :: more → s.cur.busy = false → decode s.cfg.romShape p = .ok i →
    (∀ code ops, p = .command code ops →
        step s = exec i { s with
          cur := { s.cur with code := code.setWidth 5, ops := ops, busy := true, step := 0 }
          env := { s.env with pending := more } })
      ∧ ((∀ code ops, p ≠ .command code ops) → step s = exec i { s with env := { s.env with pending := more } })

/-- An idle host changes nothing (R102, R136: "no frame; no check"); a busy block has no step but the host's reset (R135, log 7); what is
no host move is refused by name (R136, log 19). -/
def Obligations.StepIsIdleStuckOrRefused : Prop :=
  ∀ s : State,
    (s.env.pending = [] → s.cur.busy = false → step s = .next s)
      ∧ (s.env.pending = [] → s.cur.busy = true → step s = .fault .stuck)
      ∧ (∀ p more, s.env.pending = .present p :: more → s.cur.busy = true → step s = .fault .stuck)
      ∧ (∀ p more e, s.env.pending = .present p :: more → s.cur.busy = false → decode s.cfg.romShape p = .error e →
          step s = .refused (.notPresentable e))

/-- The host's reset (R121, R123), from any state, in the middle of a command too: with a configuration that passes the checks of R122
(and the widths of R21, log 19), the values of R121, WD_LAST sampled from the clock, no frame, and the device left alone. With another configuration it is refused: for
one that fails R122 that is the spec's, for one whose checks of R122 pass but whose widths of R21 do not, and for the refusal's name,
it is the model's choice (log 19). -/
def Obligations.HostResetGivesACleanStart : Prop :=
  ∀ (s : State) (cfg : Cfg) (more : List Move), s.env.pending = .reset cfg :: more →
    (cfgOk cfg = true →
      ∃ t : State, step s = .next t ∧ cleanStart t ∧ t.cfg = cfg ∧ t.wdLast = clockSample s ∧ s.env.clock ≤ t.wdLast
        ∧ t.env.trace = s.env.trace ++ [.reset] ∧ t.env.answers = s.env.answers ∧ t.env.device = s.env.device)
      ∧ (cfgOk cfg = false → step s = .refused .configRefused)

/-- What reset leaves (R29, R121, R137). -/
def Obligations.ResetStateIsACleanStart : Prop :=
  cleanStart State.reset ∧ State.reset.env.trace = [] ∧ State.reset.env.pending = []

/-- The invariant holds at reset. -/
def Obligations.ResetMeetsTheInvariant : Prop :=
  Inv State.reset

/-- Every step keeps the invariant: the port history stays legal and explains GSB, FAULTED and RES (R17, R23, R25, R41), WD_INTERVAL
stays in the table (R19), WD_LAST does not pass the clock (R20), the configuration stays a checked one (R21, R122). -/
def Obligations.EveryStepKeepsTheInvariant : Prop :=
  ∀ s t : State, Inv s → step s = .next t → Inv t

/-- FAULTED is left only by reset (R23, R115). -/
def Obligations.FaultedIsLeftOnlyByReset : Prop :=
  ∀ s t : State, s.faulted = true → step s = .next t →
    t.faulted = true ∨ ∃ cfg more, s.env.pending = .reset cfg :: more

/-- No instruction rewrites what has been on the ports, and the moves, the configuration and the fixed fields of the outside stay
(R21, R45). -/
def Obligations.ExecOnlyAddsToTheHistory : Prop :=
  ∀ (i : Instr) (s t : State), exec i s = .next t →
    (∃ es, t.env.trace = s.env.trace ++ es) ∧ t.cfg = s.cfg ∧ t.env.pending = s.env.pending
      ∧ t.env.resetStrikes = s.env.resetStrikes ∧ s.env.clock ≤ t.env.clock ∧ t.cur.code = s.cur.code ∧ t.cur.ops = s.cur.ops

/-- Who writes the watchdog controller's state: WD_RUN only WD_ENABLE, WD_DISABLE and MODE_SET (R18), WD_INTERVAL only WD_SET_INTERVAL
(R19), WD_LAST only the checks of WD_CHECK, MAINTAIN and READ_AVG and WD_SET_INTERVAL (R20). -/
def Obligations.WatchdogStateHasItsWritersOnly : Prop :=
  ∀ (i : Instr) (s t : State), exec i s = .next t →
    (i ≠ .wdEnable → i ≠ .wdDisable → (∀ arg, i ≠ .modeSet arg) → t.wdRun = s.wdRun)
      ∧ ((∀ arg, i ≠ .wdSetInterval arg) → t.wdInterval = s.wdInterval)
      ∧ (i ≠ .wdCheck → (∀ arg, i ≠ .maintain arg) → (∀ reg mask arg, i ≠ .readAvg reg mask arg) →
          (∀ arg, i ≠ .wdSetInterval arg) → t.wdLast = s.wdLast)

/-- The commands without frames (R61, R85, R86, R97, R98) leave the exchange port, GSB, the clock and the device alone. -/
def Obligations.FramelessCommandsTouchNoPort : Prop :=
  ∀ (i : Instr) (s t : State), issuesNoFrame i = true → exec i s = .next t →
    t.env = { s.env with trace := s.env.trace ++ [.result t.res] } ∧ t.gsb = s.gsb ∧ t.gsbValid = s.gsbValid
      ∧ t.rxData = s.rxData ∧ t.cs = s.cs ∧ t.faulted = s.faulted ∧ t.wdLast = s.wdLast
      ∧ t.wdInterval = s.wdInterval ∧ t.cur = { s.cur with busy := false }

/-- Every frame an instruction puts on the port, a frame form run by itself included (log 9), is a well-formed request of the configured
ROM shape in the configured SPI mode, and no WRITE to a non-writable address goes out while CFG.ENFORCE_WRITABLE is true (R22, R55,
R56, R58, R59). -/
def Obligations.InstructionsEmitOnlyAllowedRequests : Prop :=
  ∀ (i : Instr) (s t : State), exec i s = .next t →
    ∃ es, t.env.trace = s.env.trace ++ es
      ∧ ∀ mode tx reply, .frame mode tx reply ∈ es → mode = spiMode s.cfg ∧ requestAllowed s.cfg tx

/-- The device's time limits and the serial clock rate are read by no rule of the block (R9, R118, R133): with other values there,
every instruction does the same. -/
def Obligations.TimeLimitsAndClockRateHaveNoEffect : Prop :=
  ∀ (i : Instr) (s t : State) (hz : Nat) (limits : Table4) (limit : U32),
    exec i s = .next t →
    exec i { s with cfg := { s.cfg with
        spiClockHz := hz, wdDeviceTimeoutMs := limits, wdDeviceTimeoutDefaultMs := limit } }
      = .next { t with cfg := { t.cfg with
          spiClockHz := hz, wdDeviceTimeoutMs := limits, wdDeviceTimeoutDefaultMs := limit } }

/-! ### The reference device -/

/-- The read-modify-write law on the reference device (R51, R89): a READ after MODIFY returns the old value's bits outside the mask and
DATA's bits inside it, on bits 23:0. -/
def Obligations.ModifyThenReadReturnsTheMergedValue : Prop :=
  ∀ (reg : Addr) (mask data : U32) (s : State) (d : RefDevice),
    ready s → (s.cfg.enforceWritable = true → writable reg = true) →
    s.env.answers = [] → s.env.device = .reference d → d.mem.wf = true →
    ∃ t u : State, exec (.modify reg mask data) s = .next t ∧ exec (.read reg) t = .next u
      ∧ u.res = ⟨.ok, merged mask data ((regRead d.mem reg).setWidth 32) &&& 0x00FFFFFF, false⟩

/-- What a WRITE, a READ and a RAC do to the reference device's memory (R39, R51): WRITE sets the register to DATA[23:0], RAC clears the
bits of MASK, READ changes nothing; every byte outside the register's three stays. -/
def Obligations.FramesChangeOnlyTheirRegister : Prop :=
  ∀ (reg : Addr) (v : U32) (s : State) (d : RefDevice),
    ready s → s.env.answers = [] → s.env.device = .reference d → d.mem.wf = true →
    ((s.cfg.enforceWritable = true → writable reg = true) →
      ∃ (t : State) (e : RefDevice), exec (.write reg v) s = .next t ∧ t.env.device = .reference e
        ∧ regRead e.mem reg = v.setWidth 24
        ∧ ∀ x, x < regBase reg ∨ regBase reg + 2 < x → e.mem.read x = d.mem.read x)
    ∧ (∃ (t : State) (e : RefDevice), exec (.rac reg v) s = .next t ∧ t.env.device = .reference e
        ∧ regRead e.mem reg = regRead d.mem reg &&& ~~~(v.setWidth 24)
        ∧ t.res = ⟨.ok, (regRead d.mem reg).setWidth 32, false⟩
        ∧ ∀ x, x < regBase reg ∨ regBase reg + 2 < x → e.mem.read x = d.mem.read x)
    ∧ (∃ (t : State) (e : RefDevice), exec (.read reg) s = .next t ∧ t.env.device = .reference e
        ∧ t.res = ⟨.ok, (regRead d.mem reg).setWidth 32, false⟩ ∧ e.mem = d.mem)

/-- The memory frame of every instruction (R39, R51, R88): against the reference device, every byte outside the registers the instruction
stores to reads as before, and the memory keeps its canonical form. An instruction that stores nothing changes no byte. -/
def Obligations.InstructionsStoreOnlyToTheirRegisters : Prop :=
  ∀ (i : Instr) (s t : State) (d : RefDevice),
    s.env.device = .reference d → d.mem.wf = true → exec i s = .next t →
    ∃ e : RefDevice, t.env.device = .reference e ∧ e.mem.wf = true
      ∧ ∀ x, (∀ a, storesTo s.cfg i a → x < regBase a ∨ regBase a + 2 < x) → e.mem.read x = d.mem.read x
end

