-- ==== Sys2Proof/Laws/Codec.lean ====
section
/-! SUPPORT. The codec against the field layouts of R52 and R56: one lemma per codec function, and the two spellings of a request. -/

namespace Sys2Proof.Machine

theorem header_of_addr (op : Op) (a : Addr) :
    encodeHeader op (a.setWidth 32) = (opBits op).extractLsb' 6 2 ++ a := by
  revert a
  cases op <;> decide

@[simp] theorem header_write (a : Addr) : encodeHeader .write (a.setWidth 32) = 0#2 ++ a := by
  rw [header_of_addr]; rfl

@[simp] theorem header_read (a : Addr) : encodeHeader .read (a.setWidth 32) = 1#2 ++ a := by
  rw [header_of_addr]; rfl

@[simp] theorem header_readAndClear (a : Addr) : encodeHeader .readAndClear (a.setWidth 32) = 2#2 ++ a := by
  rw [header_of_addr]; rfl

@[simp] theorem header_deviceInfo (a : Addr) : encodeHeader .deviceInfo (a.setWidth 32) = 3#2 ++ a := by
  rw [header_of_addr]; rfl

/-- Truncating to 24 bits loses none of the three payload bytes. -/
theorem low_byte_of_truncated (v : U32) (k : Nat) (hk : k + 8 ≤ 24) :
    (v.setWidth 24).extractLsb' k 8 = v.extractLsb' k 8 := by
  apply BitVec.eq_of_getLsbD_eq
  intro i hi
  simp only [BitVec.getLsbD_extractLsb', BitVec.getLsbD_setWidth]
  have : k + i < 24 := by omega
  simp [this]

theorem buildFrame4_write (a : Addr) (v : U32) :
    buildFrame4 .write (a.setWidth 32) v = wire 0 a (v.setWidth 24) := by
  simp [buildFrame4, wire, packPayload, low_byte_of_truncated]

theorem buildFrame4_read (a : Addr) (v : U32) :
    buildFrame4 .read (a.setWidth 32) v = wire 1 a (v.setWidth 24) := by
  simp [buildFrame4, wire, packPayload, low_byte_of_truncated]

theorem buildFrame4_readAndClear (a : Addr) (v : U32) :
    buildFrame4 .readAndClear (a.setWidth 32) v = wire 2 a (v.setWidth 24) := by
  simp [buildFrame4, wire, packPayload, low_byte_of_truncated]

theorem buildFrame4_deviceInfo (a : Addr) (v : U32) :
    buildFrame4 .deviceInfo (a.setWidth 32) v = wire 3 a (v.setWidth 24) := by
  simp [buildFrame4, wire, packPayload, low_byte_of_truncated]

@[simp] theorem requestFrame_write (shape : Shape) (a : Addr) (v : U32) :
    requestFrame shape .write a v = wire 0 a (v.setWidth 24) := by
  simp [requestFrame, buildFrame4_write]

@[simp] theorem requestFrame_read (shape : Shape) (a : Addr) (v : U32) :
    requestFrame shape .read a v = wire 1 a (v.setWidth 24) := by
  simp [requestFrame, buildFrame4_read]

@[simp] theorem requestFrame_readAndClear (shape : Shape) (a : Addr) (v : U32) :
    requestFrame shape .readAndClear a v = wire 2 a (v.setWidth 24) := by
  simp [requestFrame, buildFrame4_readAndClear]

@[simp] theorem requestFrame_rom4 (a : Addr) (v : U32) :
    requestFrame .four .deviceInfo a v = wire 3 a (v.setWidth 24) := by
  simp [requestFrame, buildFrame4_deviceInfo]

@[simp] theorem requestFrame_rom2 (a : Addr) (v : U32) : requestFrame .two .deviceInfo a v = wireRom2 a := by
  simp [requestFrame, buildRom2, wireRom2]

@[simp] theorem wire_length (op : BitVec 2) (a : Addr) (p : U24) : (wire op a p).length = 4 := rfl

@[simp] theorem wireRom2_length (a : Addr) : (wireRom2 a).length = 2 := rfl

@[simp] theorem headerByte_wire (op : BitVec 2) (a : Addr) (p : U24) : headerByte (wire op a p) = op ++ a := rfl

@[simp] theorem headerByte_wireRom2 (a : Addr) : headerByte (wireRom2 a) = 3#2 ++ a := rfl

/-- A request is four bytes, or two (R58). -/
theorem requestFrame_length (shape : Shape) (op : Op) (a : Addr) (v : U32) :
    (requestFrame shape op a v).length = 4 ∨ (requestFrame shape op a v).length = 2 := by
  unfold requestFrame
  split
  · exact .inr rfl
  · exact .inl rfl

/-- The three payload bytes of a 24-bit value make that value. -/
theorem payload_of_bytes (p : U24) :
    p.extractLsb' 16 8 ++ p.extractLsb' 8 8 ++ p.extractLsb' 0 8 = p := by
  apply BitVec.eq_of_getLsbD_eq
  intro i hi
  simp only [BitVec.getLsbD_append, BitVec.getLsbD_extractLsb']
  by_cases h0 : i < 8
  · simp [h0]
  · by_cases h1 : i < 16
    · have h2 : i - 8 < 8 := by omega
      have h3 : 8 + (i - 8) = i := by omega
      simp [h0, h2, h3]
    · have h2 : ¬ i - 8 < 8 := by omega
      have h4 : i - 8 - 8 < 8 := by omega
      have h3 : 16 + (i - 8 - 8) = i := by omega
      simp [h0, h2, h4, h3]

end Sys2Proof.Machine
end

