-- ==== Sys2Proof/Laws/State.lean ====
section
/-! SUPPORT. One lemma per field per update of the state, each true by unfolding one record update, so that no later proof unfolds
one: what the updates of Machine/Ops.lean write, and that they leave the rest alone. -/

namespace Sys2Proof.Machine

variable (s : State)

@[simp] theorem record_gsb (es : List Event) : (s.record es).gsb = s.gsb := rfl
@[simp] theorem record_gsbValid (es : List Event) : (s.record es).gsbValid = s.gsbValid := rfl
@[simp] theorem record_wdRun (es : List Event) : (s.record es).wdRun = s.wdRun := rfl
@[simp] theorem record_wdInterval (es : List Event) : (s.record es).wdInterval = s.wdInterval := rfl
@[simp] theorem record_wdLast (es : List Event) : (s.record es).wdLast = s.wdLast := rfl
@[simp] theorem record_faulted (es : List Event) : (s.record es).faulted = s.faulted := rfl
@[simp] theorem record_cfg (es : List Event) : (s.record es).cfg = s.cfg := rfl
@[simp] theorem record_cur (es : List Event) : (s.record es).cur = s.cur := rfl
@[simp] theorem record_res (es : List Event) : (s.record es).res = s.res := rfl
@[simp] theorem record_cs (es : List Event) : (s.record es).cs = s.cs := rfl
@[simp] theorem record_rxData (es : List Event) : (s.record es).rxData = s.rxData := rfl
@[simp] theorem record_env_pending (es : List Event) : (s.record es).env.pending = s.env.pending := rfl
@[simp] theorem record_env_resetStrikes (es : List Event) : (s.record es).env.resetStrikes = s.env.resetStrikes := rfl
@[simp] theorem record_env_abandonAfter (es : List Event) : (s.record es).env.abandonAfter = s.env.abandonAfter := rfl
@[simp] theorem record_env_answers (es : List Event) : (s.record es).env.answers = s.env.answers := rfl
@[simp] theorem record_env_device (es : List Event) : (s.record es).env.device = s.env.device := rfl
@[simp] theorem record_env_samples (es : List Event) : (s.record es).env.samples = s.env.samples := rfl
@[simp] theorem record_env_clock (es : List Event) : (s.record es).env.clock = s.env.clock := rfl
@[simp] theorem record_env_drawn (es : List Event) : (s.record es).env.drawn = s.env.drawn := rfl
@[simp] theorem record_env_trace (es : List Event) : (s.record es).env.trace = s.env.trace ++ es := rfl

@[simp] theorem setBusy_gsb (b : Bool) : (s.setBusy b).gsb = s.gsb := rfl
@[simp] theorem setBusy_gsbValid (b : Bool) : (s.setBusy b).gsbValid = s.gsbValid := rfl
@[simp] theorem setBusy_wdRun (b : Bool) : (s.setBusy b).wdRun = s.wdRun := rfl
@[simp] theorem setBusy_wdInterval (b : Bool) : (s.setBusy b).wdInterval = s.wdInterval := rfl
@[simp] theorem setBusy_wdLast (b : Bool) : (s.setBusy b).wdLast = s.wdLast := rfl
@[simp] theorem setBusy_faulted (b : Bool) : (s.setBusy b).faulted = s.faulted := rfl
@[simp] theorem setBusy_cfg (b : Bool) : (s.setBusy b).cfg = s.cfg := rfl
@[simp] theorem setBusy_cur_code (b : Bool) : (s.setBusy b).cur.code = s.cur.code := rfl
@[simp] theorem setBusy_cur_ops (b : Bool) : (s.setBusy b).cur.ops = s.cur.ops := rfl
@[simp] theorem setBusy_cur_busy (b : Bool) : (s.setBusy b).cur.busy = b := rfl
@[simp] theorem setBusy_cur_step (b : Bool) : (s.setBusy b).cur.step = s.cur.step := rfl
@[simp] theorem setBusy_cur_tmp (b : Bool) : (s.setBusy b).cur.tmp = s.cur.tmp := rfl
@[simp] theorem setBusy_cur_sum (b : Bool) : (s.setBusy b).cur.sum = s.cur.sum := rfl
@[simp] theorem setBusy_cur_i (b : Bool) : (s.setBusy b).cur.i = s.cur.i := rfl
@[simp] theorem setBusy_cur_now (b : Bool) : (s.setBusy b).cur.now = s.cur.now := rfl
@[simp] theorem setBusy_res (b : Bool) : (s.setBusy b).res = s.res := rfl
@[simp] theorem setBusy_cs (b : Bool) : (s.setBusy b).cs = s.cs := rfl
@[simp] theorem setBusy_rxData (b : Bool) : (s.setBusy b).rxData = s.rxData := rfl
@[simp] theorem setBusy_env (b : Bool) : (s.setBusy b).env = s.env := rfl

@[simp] theorem setTmp_gsb (v : U32) : (s.setTmp v).gsb = s.gsb := rfl
@[simp] theorem setTmp_gsbValid (v : U32) : (s.setTmp v).gsbValid = s.gsbValid := rfl
@[simp] theorem setTmp_wdRun (v : U32) : (s.setTmp v).wdRun = s.wdRun := rfl
@[simp] theorem setTmp_wdInterval (v : U32) : (s.setTmp v).wdInterval = s.wdInterval := rfl
@[simp] theorem setTmp_wdLast (v : U32) : (s.setTmp v).wdLast = s.wdLast := rfl
@[simp] theorem setTmp_faulted (v : U32) : (s.setTmp v).faulted = s.faulted := rfl
@[simp] theorem setTmp_cfg (v : U32) : (s.setTmp v).cfg = s.cfg := rfl
@[simp] theorem setTmp_cur_code (v : U32) : (s.setTmp v).cur.code = s.cur.code := rfl
@[simp] theorem setTmp_cur_ops (v : U32) : (s.setTmp v).cur.ops = s.cur.ops := rfl
@[simp] theorem setTmp_cur_busy (v : U32) : (s.setTmp v).cur.busy = s.cur.busy := rfl
@[simp] theorem setTmp_cur_step (v : U32) : (s.setTmp v).cur.step = s.cur.step := rfl
@[simp] theorem setTmp_cur_tmp (v : U32) : (s.setTmp v).cur.tmp = v := rfl
@[simp] theorem setTmp_cur_sum (v : U32) : (s.setTmp v).cur.sum = s.cur.sum := rfl
@[simp] theorem setTmp_cur_i (v : U32) : (s.setTmp v).cur.i = s.cur.i := rfl
@[simp] theorem setTmp_cur_now (v : U32) : (s.setTmp v).cur.now = s.cur.now := rfl
@[simp] theorem setTmp_res (v : U32) : (s.setTmp v).res = s.res := rfl
@[simp] theorem setTmp_cs (v : U32) : (s.setTmp v).cs = s.cs := rfl
@[simp] theorem setTmp_rxData (v : U32) : (s.setTmp v).rxData = s.rxData := rfl
@[simp] theorem setTmp_env (v : U32) : (s.setTmp v).env = s.env := rfl

@[simp] theorem setSum_gsb (v : U32) : (s.setSum v).gsb = s.gsb := rfl
@[simp] theorem setSum_gsbValid (v : U32) : (s.setSum v).gsbValid = s.gsbValid := rfl
@[simp] theorem setSum_wdRun (v : U32) : (s.setSum v).wdRun = s.wdRun := rfl
@[simp] theorem setSum_wdInterval (v : U32) : (s.setSum v).wdInterval = s.wdInterval := rfl
@[simp] theorem setSum_wdLast (v : U32) : (s.setSum v).wdLast = s.wdLast := rfl
@[simp] theorem setSum_faulted (v : U32) : (s.setSum v).faulted = s.faulted := rfl
@[simp] theorem setSum_cfg (v : U32) : (s.setSum v).cfg = s.cfg := rfl
@[simp] theorem setSum_cur_code (v : U32) : (s.setSum v).cur.code = s.cur.code := rfl
@[simp] theorem setSum_cur_ops (v : U32) : (s.setSum v).cur.ops = s.cur.ops := rfl
@[simp] theorem setSum_cur_busy (v : U32) : (s.setSum v).cur.busy = s.cur.busy := rfl
@[simp] theorem setSum_cur_step (v : U32) : (s.setSum v).cur.step = s.cur.step := rfl
@[simp] theorem setSum_cur_tmp (v : U32) : (s.setSum v).cur.tmp = s.cur.tmp := rfl
@[simp] theorem setSum_cur_sum (v : U32) : (s.setSum v).cur.sum = v := rfl
@[simp] theorem setSum_cur_i (v : U32) : (s.setSum v).cur.i = s.cur.i := rfl
@[simp] theorem setSum_cur_now (v : U32) : (s.setSum v).cur.now = s.cur.now := rfl
@[simp] theorem setSum_res (v : U32) : (s.setSum v).res = s.res := rfl
@[simp] theorem setSum_cs (v : U32) : (s.setSum v).cs = s.cs := rfl
@[simp] theorem setSum_rxData (v : U32) : (s.setSum v).rxData = s.rxData := rfl
@[simp] theorem setSum_env (v : U32) : (s.setSum v).env = s.env := rfl

@[simp] theorem setI_gsb (v : U32) : (s.setI v).gsb = s.gsb := rfl
@[simp] theorem setI_gsbValid (v : U32) : (s.setI v).gsbValid = s.gsbValid := rfl
@[simp] theorem setI_wdRun (v : U32) : (s.setI v).wdRun = s.wdRun := rfl
@[simp] theorem setI_wdInterval (v : U32) : (s.setI v).wdInterval = s.wdInterval := rfl
@[simp] theorem setI_wdLast (v : U32) : (s.setI v).wdLast = s.wdLast := rfl
@[simp] theorem setI_faulted (v : U32) : (s.setI v).faulted = s.faulted := rfl
@[simp] theorem setI_cfg (v : U32) : (s.setI v).cfg = s.cfg := rfl
@[simp] theorem setI_cur_code (v : U32) : (s.setI v).cur.code = s.cur.code := rfl
@[simp] theorem setI_cur_ops (v : U32) : (s.setI v).cur.ops = s.cur.ops := rfl
@[simp] theorem setI_cur_busy (v : U32) : (s.setI v).cur.busy = s.cur.busy := rfl
@[simp] theorem setI_cur_step (v : U32) : (s.setI v).cur.step = s.cur.step := rfl
@[simp] theorem setI_cur_tmp (v : U32) : (s.setI v).cur.tmp = s.cur.tmp := rfl
@[simp] theorem setI_cur_sum (v : U32) : (s.setI v).cur.sum = s.cur.sum := rfl
@[simp] theorem setI_cur_i (v : U32) : (s.setI v).cur.i = v := rfl
@[simp] theorem setI_cur_now (v : U32) : (s.setI v).cur.now = s.cur.now := rfl
@[simp] theorem setI_res (v : U32) : (s.setI v).res = s.res := rfl
@[simp] theorem setI_cs (v : U32) : (s.setI v).cs = s.cs := rfl
@[simp] theorem setI_rxData (v : U32) : (s.setI v).rxData = s.rxData := rfl
@[simp] theorem setI_env (v : U32) : (s.setI v).env = s.env := rfl

@[simp] theorem setNow_gsb (v : U64) : (s.setNow v).gsb = s.gsb := rfl
@[simp] theorem setNow_gsbValid (v : U64) : (s.setNow v).gsbValid = s.gsbValid := rfl
@[simp] theorem setNow_wdRun (v : U64) : (s.setNow v).wdRun = s.wdRun := rfl
@[simp] theorem setNow_wdInterval (v : U64) : (s.setNow v).wdInterval = s.wdInterval := rfl
@[simp] theorem setNow_wdLast (v : U64) : (s.setNow v).wdLast = s.wdLast := rfl
@[simp] theorem setNow_faulted (v : U64) : (s.setNow v).faulted = s.faulted := rfl
@[simp] theorem setNow_cfg (v : U64) : (s.setNow v).cfg = s.cfg := rfl
@[simp] theorem setNow_cur_code (v : U64) : (s.setNow v).cur.code = s.cur.code := rfl
@[simp] theorem setNow_cur_ops (v : U64) : (s.setNow v).cur.ops = s.cur.ops := rfl
@[simp] theorem setNow_cur_busy (v : U64) : (s.setNow v).cur.busy = s.cur.busy := rfl
@[simp] theorem setNow_cur_step (v : U64) : (s.setNow v).cur.step = s.cur.step := rfl
@[simp] theorem setNow_cur_tmp (v : U64) : (s.setNow v).cur.tmp = s.cur.tmp := rfl
@[simp] theorem setNow_cur_sum (v : U64) : (s.setNow v).cur.sum = s.cur.sum := rfl
@[simp] theorem setNow_cur_i (v : U64) : (s.setNow v).cur.i = s.cur.i := rfl
@[simp] theorem setNow_cur_now (v : U64) : (s.setNow v).cur.now = v := rfl
@[simp] theorem setNow_res (v : U64) : (s.setNow v).res = s.res := rfl
@[simp] theorem setNow_cs (v : U64) : (s.setNow v).cs = s.cs := rfl
@[simp] theorem setNow_rxData (v : U64) : (s.setNow v).rxData = s.rxData := rfl
@[simp] theorem setNow_env (v : U64) : (s.setNow v).env = s.env := rfl

@[simp] theorem setRun_gsb (b : Bool) : (s.setRun b).gsb = s.gsb := rfl
@[simp] theorem setRun_gsbValid (b : Bool) : (s.setRun b).gsbValid = s.gsbValid := rfl
@[simp] theorem setRun_wdRun (b : Bool) : (s.setRun b).wdRun = b := rfl
@[simp] theorem setRun_wdInterval (b : Bool) : (s.setRun b).wdInterval = s.wdInterval := rfl
@[simp] theorem setRun_wdLast (b : Bool) : (s.setRun b).wdLast = s.wdLast := rfl
@[simp] theorem setRun_faulted (b : Bool) : (s.setRun b).faulted = s.faulted := rfl
@[simp] theorem setRun_cfg (b : Bool) : (s.setRun b).cfg = s.cfg := rfl
@[simp] theorem setRun_cur (b : Bool) : (s.setRun b).cur = s.cur := rfl
@[simp] theorem setRun_res (b : Bool) : (s.setRun b).res = s.res := rfl
@[simp] theorem setRun_cs (b : Bool) : (s.setRun b).cs = s.cs := rfl
@[simp] theorem setRun_rxData (b : Bool) : (s.setRun b).rxData = s.rxData := rfl
@[simp] theorem setRun_env (b : Bool) : (s.setRun b).env = s.env := rfl

@[simp] theorem setInterval_gsb (v : U32) : (s.setInterval v).gsb = s.gsb := rfl
@[simp] theorem setInterval_gsbValid (v : U32) : (s.setInterval v).gsbValid = s.gsbValid := rfl
@[simp] theorem setInterval_wdRun (v : U32) : (s.setInterval v).wdRun = s.wdRun := rfl
@[simp] theorem setInterval_wdInterval (v : U32) : (s.setInterval v).wdInterval = v := rfl
@[simp] theorem setInterval_wdLast (v : U32) : (s.setInterval v).wdLast = s.wdLast := rfl
@[simp] theorem setInterval_faulted (v : U32) : (s.setInterval v).faulted = s.faulted := rfl
@[simp] theorem setInterval_cfg (v : U32) : (s.setInterval v).cfg = s.cfg := rfl
@[simp] theorem setInterval_cur (v : U32) : (s.setInterval v).cur = s.cur := rfl
@[simp] theorem setInterval_res (v : U32) : (s.setInterval v).res = s.res := rfl
@[simp] theorem setInterval_cs (v : U32) : (s.setInterval v).cs = s.cs := rfl
@[simp] theorem setInterval_rxData (v : U32) : (s.setInterval v).rxData = s.rxData := rfl
@[simp] theorem setInterval_env (v : U32) : (s.setInterval v).env = s.env := rfl

@[simp] theorem setLast_gsb (v : U64) : (s.setLast v).gsb = s.gsb := rfl
@[simp] theorem setLast_gsbValid (v : U64) : (s.setLast v).gsbValid = s.gsbValid := rfl
@[simp] theorem setLast_wdRun (v : U64) : (s.setLast v).wdRun = s.wdRun := rfl
@[simp] theorem setLast_wdInterval (v : U64) : (s.setLast v).wdInterval = s.wdInterval := rfl
@[simp] theorem setLast_wdLast (v : U64) : (s.setLast v).wdLast = v := rfl
@[simp] theorem setLast_faulted (v : U64) : (s.setLast v).faulted = s.faulted := rfl
@[simp] theorem setLast_cfg (v : U64) : (s.setLast v).cfg = s.cfg := rfl
@[simp] theorem setLast_cur (v : U64) : (s.setLast v).cur = s.cur := rfl
@[simp] theorem setLast_res (v : U64) : (s.setLast v).res = s.res := rfl
@[simp] theorem setLast_cs (v : U64) : (s.setLast v).cs = s.cs := rfl
@[simp] theorem setLast_rxData (v : U64) : (s.setLast v).rxData = s.rxData := rfl
@[simp] theorem setLast_env (v : U64) : (s.setLast v).env = s.env := rfl

@[simp] theorem advance_gsb : (s.advance).gsb = s.gsb := rfl
@[simp] theorem advance_gsbValid : (s.advance).gsbValid = s.gsbValid := rfl
@[simp] theorem advance_wdRun : (s.advance).wdRun = s.wdRun := rfl
@[simp] theorem advance_wdInterval : (s.advance).wdInterval = s.wdInterval := rfl
@[simp] theorem advance_wdLast : (s.advance).wdLast = s.wdLast := rfl
@[simp] theorem advance_faulted : (s.advance).faulted = s.faulted := rfl
@[simp] theorem advance_cfg : (s.advance).cfg = s.cfg := rfl
@[simp] theorem advance_cur_code : (s.advance).cur.code = s.cur.code := rfl
@[simp] theorem advance_cur_ops : (s.advance).cur.ops = s.cur.ops := rfl
@[simp] theorem advance_cur_busy : (s.advance).cur.busy = s.cur.busy := rfl
@[simp] theorem advance_cur_step : (s.advance).cur.step = s.cur.step + 1 := rfl
@[simp] theorem advance_cur_tmp : (s.advance).cur.tmp = s.cur.tmp := rfl
@[simp] theorem advance_cur_sum : (s.advance).cur.sum = s.cur.sum := rfl
@[simp] theorem advance_cur_i : (s.advance).cur.i = s.cur.i := rfl
@[simp] theorem advance_cur_now : (s.advance).cur.now = s.cur.now := rfl
@[simp] theorem advance_res : (s.advance).res = s.res := rfl
@[simp] theorem advance_cs : (s.advance).cs = s.cs := rfl
@[simp] theorem advance_rxData : (s.advance).rxData = s.rxData := rfl
@[simp] theorem advance_env : (s.advance).env = s.env := rfl

end Sys2Proof.Machine
end

