-- ==== Sys2Proof/Laws/Sequence.lean ====
section
/-! SUPPORT. What the shared operations of Machine/Ops.lean do, said once: how a sequence goes on, how a command ends, what one
exchange and one clock sample leave, for every source the answer or sample can come from. -/

namespace Sys2Proof.Machine

/-! ### Going on -/

@[simp] theorem andThen_run {α β : Type} (a : α) (s : State) (k : α → State → Seq β) :
    andThen (.run a s) k = k a s := rfl

@[simp] theorem andThen_ended {α β : Type} (s : State) (k : α → State → Seq β) :
    andThen (.ended s : Seq α) k = .ended s := rfl

/-- What a piece of a sequence leaves, whether it runs on or ends the command. -/
def Meets {α : Type} (m : Seq α) (running ended : State → Prop) : Prop :=
  match m with
  | .run _ s => running s
  | .ended s => ended s

@[simp] theorem meets_run {α : Type} (a : α) (s : State) (R E : State → Prop) :
    Meets (.run a s) R E ↔ R s := Iff.rfl

@[simp] theorem meets_ended {α : Type} (s : State) (R E : State → Prop) :
    Meets (.ended s : Seq α) R E ↔ E s := Iff.rfl

theorem meets_andThen {α β : Type} {m : Seq α} {k : α → State → Seq β} {P R E : State → Prop}
    (hm : Meets m P E) (hk : ∀ a s, P s → Meets (k a s) R E) : Meets (andThen m k) R E := by
  cases m with
  | run a s => exact hk a s hm
  | ended s => exact hm

theorem Meets.imp {α : Type} {m : Seq α} {R R' E E' : State → Prop} (h : Meets m R E)
    (hr : ∀ s, R s → R' s) (he : ∀ s, E s → E' s) : Meets m R' E' := by
  cases m with
  | run a s => exact hr s h
  | ended s => exact he s h

/-! ### Commands -/

theorem finish_eq_completed (status : Status) (data : U32) (flag : Bool) (s : State) :
    finish status data flag s = completed status data flag s := rfl

theorem runCommand_faulted {body : State → Seq (U32 × Bool)} {s : State} (h : s.faulted = true) :
    runCommand body s = completed .faulted 0 false s := by
  simp [runCommand, h, finish_eq_completed]

/-- What busy is does not show after the command. -/
@[simp] theorem completed_setBusy (status : Status) (data : U32) (flag b : Bool) (s : State) :
    completed status data flag (s.setBusy b) = completed status data flag s := rfl

theorem runCommand_run {body : State → Seq (U32 × Bool)} {s t : State} {d : U32} {f : Bool}
    (h : s.faulted = false) (hb : body (s.setBusy true) = .run (d, f) t) :
    runCommand body s = completed .ok d f t := by
  simp [runCommand, h, hb, finish_eq_completed]

theorem runCommand_ended {body : State → Seq (U32 × Bool)} {s t : State}
    (h : s.faulted = false) (hb : body (s.setBusy true) = .ended t) : runCommand body s = t := by
  simp [runCommand, h, hb]

/-- A property of every command's outcome: of FAULTED's refusal, of the end, and of where the body stops early. -/
theorem runCommand_meets {body : State → Seq (U32 × Bool)} {s : State} {P : State → Prop}
    (hf : s.faulted = true → P (completed .faulted 0 false s))
    (hb : s.faulted = false →
      Meets (body (s.setBusy true)) (fun t => ∀ d f, P (completed .ok d f t)) P) :
    P (runCommand body s) := by
  unfold runCommand
  by_cases h : s.faulted
  · simpa [h, finish_eq_completed] using hf h
  · have hb := hb (by simpa using h)
    simp only [h]
    revert hb
    cases body (s.setBusy true) with
    | run r t => intro hb; exact hb r.1 r.2
    | ended t => intro hb; exact hb

/-! ### Primitives -/

theorem primitive_ready {s : State} (h : s.env.abandonAfter = none) : primitive s = .run () s.advance := by
  simp [primitive, h]

theorem primitive_struck {s : State} (h : s.env.abandonAfter = some 0) : primitive s = .ended s := by
  simp [primitive, h]

/-- The state an environment primitive begins from: one step further, one step nearer to the host's reset if that is due. -/
def begun (s : State) : State :=
  { s with
    cur := { s.cur with step := s.cur.step + 1 }
    env := { s.env with abandonAfter := s.env.abandonAfter.map (· - 1) } }

theorem begun_ready {s : State} (h : s.env.abandonAfter = none) : begun s = s.advance := by
  simp [begun, State.advance, h]
  rw [← h]

/-- A primitive begins, or the host's reset strikes and the state stays as it is. -/
theorem primitive_cases (s : State) :
    (primitive s = .run () (begun s)) ∨ (primitive s = .ended s ∧ s.env.abandonAfter = some 0) := by
  unfold primitive
  split
  · rename_i h
    exact .inl (by rw [begun_ready h])
  · rename_i h
    exact .inr ⟨rfl, h⟩
  · rename_i n h
    refine .inl ?_
    simp [begun, State.advance, h]

/-! ### The device's answer -/

@[simp] theorem deviceAnswer_advance (tx : List Byte) (s : State) : deviceAnswer tx s.advance = deviceAnswer tx s := rfl

@[simp] theorem deviceAnswer_setBusy (tx : List Byte) (b : Bool) (s : State) :
    deviceAnswer tx (s.setBusy b) = deviceAnswer tx s := rfl

@[simp] theorem deviceAnswer_setTmp (tx : List Byte) (v : U32) (s : State) :
    deviceAnswer tx (s.setTmp v) = deviceAnswer tx s := rfl

/-- Asking the device moves only the agents outside: not the host's moves, the clock or the record of the ports. -/
theorem askDevice_eq (tx : List Byte) (s : State) :
    askDevice tx s = { s with env := (askDevice tx s).env } := by
  unfold askDevice
  repeat' split
  all_goals rfl

theorem askDevice_env (tx : List Byte) (s : State) :
    (askDevice tx s).env = { s.env with
      answers := (askDevice tx s).env.answers
      device := (askDevice tx s).env.device
      drawn := (askDevice tx s).env.drawn } := by
  unfold askDevice
  repeat' split
  all_goals rfl

@[simp] theorem askDevice_gsb (tx : List Byte) (s : State) : (askDevice tx s).gsb = s.gsb := by
  rw [askDevice_eq]

@[simp] theorem askDevice_gsbValid (tx : List Byte) (s : State) : (askDevice tx s).gsbValid = s.gsbValid := by
  rw [askDevice_eq]

@[simp] theorem askDevice_wdRun (tx : List Byte) (s : State) : (askDevice tx s).wdRun = s.wdRun := by
  rw [askDevice_eq]

@[simp] theorem askDevice_wdInterval (tx : List Byte) (s : State) : (askDevice tx s).wdInterval = s.wdInterval := by
  rw [askDevice_eq]

@[simp] theorem askDevice_wdLast (tx : List Byte) (s : State) : (askDevice tx s).wdLast = s.wdLast := by
  rw [askDevice_eq]

@[simp] theorem askDevice_faulted (tx : List Byte) (s : State) : (askDevice tx s).faulted = s.faulted := by
  rw [askDevice_eq]

@[simp] theorem askDevice_cfg (tx : List Byte) (s : State) : (askDevice tx s).cfg = s.cfg := by
  rw [askDevice_eq]

@[simp] theorem askDevice_cur (tx : List Byte) (s : State) : (askDevice tx s).cur = s.cur := by
  rw [askDevice_eq]

@[simp] theorem askDevice_res (tx : List Byte) (s : State) : (askDevice tx s).res = s.res := by
  rw [askDevice_eq]

@[simp] theorem askDevice_cs (tx : List Byte) (s : State) : (askDevice tx s).cs = s.cs := by
  rw [askDevice_eq]

@[simp] theorem askDevice_rxData (tx : List Byte) (s : State) : (askDevice tx s).rxData = s.rxData := by
  rw [askDevice_eq]

@[simp] theorem askDevice_trace (tx : List Byte) (s : State) : (askDevice tx s).env.trace = s.env.trace := by
  rw [askDevice_env]

@[simp] theorem askDevice_pending (tx : List Byte) (s : State) : (askDevice tx s).env.pending = s.env.pending := by
  rw [askDevice_env]

@[simp] theorem askDevice_abandonAfter (tx : List Byte) (s : State) :
    (askDevice tx s).env.abandonAfter = s.env.abandonAfter := by
  rw [askDevice_env]

@[simp] theorem askDevice_resetStrikes (tx : List Byte) (s : State) :
    (askDevice tx s).env.resetStrikes = s.env.resetStrikes := by
  rw [askDevice_env]

@[simp] theorem askDevice_clock (tx : List Byte) (s : State) : (askDevice tx s).env.clock = s.env.clock := by
  rw [askDevice_env]

@[simp] theorem askDevice_samples (tx : List Byte) (s : State) : (askDevice tx s).env.samples = s.env.samples := by
  rw [askDevice_env]

/-- What the device does depends on the agents outside and on the configuration alone. -/
theorem askDevice_env_congr (tx : List Byte) {s t : State} (he : s.env = t.env) (hc : s.cfg = t.cfg) :
    (askDevice tx s).env = (askDevice tx t).env := by
  unfold askDevice
  rw [he, hc]
  repeat' split
  all_goals simp_all

@[simp] theorem askDevice_env_advance (tx : List Byte) (s : State) : (askDevice tx s.advance).env = (askDevice tx s).env :=
  askDevice_env_congr tx rfl rfl

@[simp] theorem askDevice_env_setBusy (tx : List Byte) (b : Bool) (s : State) :
    (askDevice tx (s.setBusy b)).env = (askDevice tx s).env :=
  askDevice_env_congr tx rfl rfl

@[simp] theorem askDevice_env_setTmp (tx : List Byte) (v : U32) (s : State) :
    (askDevice tx (s.setTmp v)).env = (askDevice tx s).env :=
  askDevice_env_congr tx rfl rfl

/-! ### One exchange -/

/-- A 4-byte exchange answered Ok. -/
theorem transact_replied4 {tx : List Byte} {s : State} {b0 b1 b2 b3 : Byte} (h : s.env.abandonAfter = none)
    (hl : tx.length = 4) (ha : deviceAnswer tx s = .ok b0 b1 b2 b3) :
    transact tx s = .run (payload b1 b2 b3) (replied4 tx b0 b1 b2 b3 s) := by
  simp only [transact, primitive_ready h, andThen_run, deviceAnswer_advance, ha, parseResponse, responseBytes, hl]
  rw [askDevice_eq]
  simp [replied4, receive, bracketed, State.record, parseResponse4, unpackPayload, payload, envAsked, State.advance,
    askDevice_env_congr tx (s := { s with cur := { s.cur with step := s.cur.step + 1 } }) (t := s) rfl rfl]

/-- A 2-byte exchange answered Ok. -/
theorem transact_replied2 {tx : List Byte} {s : State} {b0 b1 b2 b3 : Byte} (h : s.env.abandonAfter = none)
    (hl : tx.length = 2) (ha : deviceAnswer tx s = .ok b0 b1 b2 b3) :
    transact tx s = .run (b1.setWidth 32) (replied2 tx b0 b1 s) := by
  simp only [transact, primitive_ready h, andThen_run, deviceAnswer_advance, ha, parseResponse, responseBytes, hl]
  rw [askDevice_eq]
  simp [replied2, receive, bracketed, State.record, parseRom2, envAsked, State.advance,
    askDevice_env_congr tx (s := { s with cur := { s.cur with step := s.cur.step + 1 } }) (t := s) rfl rfl]

/-- An exchange that failed. -/
theorem transact_failed {tx : List Byte} {s : State} (h : s.env.abandonAfter = none)
    (ha : deviceAnswer tx s = .fail) : transact tx s = .ended (failed tx (headerByte tx) s) := by
  simp only [transact, primitive_ready h, andThen_run, deviceAnswer_advance, ha, transportFault]
  rw [askDevice_eq]
  simp [failed, completed, finish, bracketed, State.record, State.setBusy, envAsked, State.advance,
    askDevice_env_congr tx (s := { s with cur := { s.cur with step := s.cur.step + 1 } }) (t := s) rfl rfl]

/-! ### One clock sample -/

/-- The clock never goes back (R116). -/
theorem clock_le_clockSample (s : State) : s.env.clock ≤ clockSample s := by
  unfold clockSample
  repeat' split
  all_goals first
    | exact BitVec.le_refl _
    | exact BitVec.not_lt.mp (by assumption)

/-- Taking a sample moves only the samples, the clock and the count of free values. -/
theorem takeSample_env (s : State) :
    (takeSample s).env = { s.env with
      samples := (takeSample s).env.samples
      clock := clockSample s
      drawn := (takeSample s).env.drawn } := by
  unfold takeSample
  split <;> rfl

theorem takeSample_eq (s : State) : takeSample s = { s with env := (takeSample s).env } := by
  unfold takeSample
  split <;> rfl

@[simp] theorem takeSample_gsb (s : State) : (takeSample s).gsb = s.gsb := by
  rw [takeSample_eq]

@[simp] theorem takeSample_gsbValid (s : State) : (takeSample s).gsbValid = s.gsbValid := by
  rw [takeSample_eq]

@[simp] theorem takeSample_wdRun (s : State) : (takeSample s).wdRun = s.wdRun := by
  rw [takeSample_eq]

@[simp] theorem takeSample_wdInterval (s : State) : (takeSample s).wdInterval = s.wdInterval := by
  rw [takeSample_eq]

@[simp] theorem takeSample_wdLast (s : State) : (takeSample s).wdLast = s.wdLast := by
  rw [takeSample_eq]

@[simp] theorem takeSample_faulted (s : State) : (takeSample s).faulted = s.faulted := by
  rw [takeSample_eq]

@[simp] theorem takeSample_cfg (s : State) : (takeSample s).cfg = s.cfg := by
  rw [takeSample_eq]

@[simp] theorem takeSample_cur (s : State) : (takeSample s).cur = s.cur := by
  rw [takeSample_eq]

@[simp] theorem takeSample_res (s : State) : (takeSample s).res = s.res := by
  rw [takeSample_eq]

@[simp] theorem takeSample_cs (s : State) : (takeSample s).cs = s.cs := by
  rw [takeSample_eq]

@[simp] theorem takeSample_rxData (s : State) : (takeSample s).rxData = s.rxData := by
  rw [takeSample_eq]

@[simp] theorem takeSample_trace (s : State) : (takeSample s).env.trace = s.env.trace := by
  rw [takeSample_env]

@[simp] theorem takeSample_clock (s : State) : (takeSample s).env.clock = clockSample s := by
  rw [takeSample_env]

@[simp] theorem takeSample_answers (s : State) : (takeSample s).env.answers = s.env.answers := by
  rw [takeSample_env]

@[simp] theorem takeSample_device (s : State) : (takeSample s).env.device = s.env.device := by
  rw [takeSample_env]

@[simp] theorem takeSample_pending (s : State) : (takeSample s).env.pending = s.env.pending := by
  rw [takeSample_env]

@[simp] theorem takeSample_abandonAfter (s : State) : (takeSample s).env.abandonAfter = s.env.abandonAfter := by
  rw [takeSample_env]

@[simp] theorem takeSample_resetStrikes (s : State) : (takeSample s).env.resetStrikes = s.env.resetStrikes := by
  rw [takeSample_env]

/-- The clock depends on the agents outside alone. -/
theorem takeSample_env_congr {s t : State} (he : s.env = t.env) :
    (takeSample s).env = (takeSample t).env ∧ clockSample s = clockSample t := by
  unfold takeSample clockSample
  rw [he]
  constructor
  · split <;> rfl
  · rfl

/-- Now() when the host's reset does not strike. -/
theorem sampleNow_ready {s : State} (h : s.env.abandonAfter = none) :
    sampleNow s = .run (clockSample s) (sampled s) := by
  have hc := takeSample_env_congr (s := s.advance) (t := s) rfl
  simp only [sampleNow, primitive_ready h, andThen_run, hc.2]
  rw [takeSample_eq]
  simp [sampled, State.record, State.advance,
    takeSample_env_congr (s := { s with cur := { s.cur with step := s.cur.step + 1 } }) (t := s) rfl]

/-- Sleep1() when the host's reset does not strike. -/
theorem sleep1_ready {s : State} (h : s.env.abandonAfter = none) : sleep1 s = .run () (s.advance.record [.sleep]) := by
  simp [sleep1, primitive_ready h]

/-! ### Checks -/

theorem checkWritable_passes {a : Addr} {s : State} (h : s.cfg.enforceWritable = true → writable a = true) :
    checkWritable a s = .run () s := by
  unfold checkWritable
  cases he : s.cfg.enforceWritable <;> simp_all

theorem checkRange_passes {arg : U32} {max : Nat} {s : State} (h : arg.toNat ≤ max) :
    checkRange arg max s = .run () s := by
  simp [checkRange, Nat.not_lt.mpr h]

theorem checkRange_refuses {arg : U32} {max : Nat} {s : State} (h : max < arg.toNat) :
    checkRange arg max s = .ended (completed .invalidSelector arg false s) := by
  simp [checkRange, h, raise, finish_eq_completed]

/-- R122 makes the registers of every internal MODIFY-seq writable. -/
theorem cfgOk_writable {c : Cfg} (h : cfgOk c = true) :
    writable (trigReg c) = true ∧ writable c.wdSelReg = true ∧ writable c.modeReg = true
      ∧ writable configAddr = true := by
  simp only [cfgOk, triggerOk, selectorOk, modeOk, Bool.and_eq_true] at h
  exact ⟨h.1.1.1.1.1, h.1.1.1.2.1.1.1, h.1.2.1.1.1.1, by decide⟩

end Sys2Proof.Machine
end

