-- ==== Sys2Proof/Laws/Exchange.lean ====
section
/-! SUPPORT. Transactions and the frame pairs built from them, when the host's reset does not strike: what they leave for each answer
of the device. -/

namespace Sys2Proof.Machine

/-! ### What busy and the locals do not affect -/

@[simp] theorem envAsked_setBusy (tx : List Byte) (es : List Event) (b : Bool) (s : State) :
    envAsked tx es (s.setBusy b) = envAsked tx es s := by
  simp [envAsked]

@[simp] theorem replied4_setBusy (tx : List Byte) (b0 b1 b2 b3 : Byte) (b : Bool) (s : State) :
    replied4 tx b0 b1 b2 b3 (s.setBusy b) = (replied4 tx b0 b1 b2 b3 s).setBusy b := by
  simp [replied4]
  rfl

@[simp] theorem replied2_setBusy (tx : List Byte) (b0 b1 : Byte) (b : Bool) (s : State) :
    replied2 tx b0 b1 (s.setBusy b) = (replied2 tx b0 b1 s).setBusy b := by
  simp [replied2]
  rfl

@[simp] theorem failed_setBusy (tx : List Byte) (h : Byte) (b : Bool) (s : State) :
    failed tx h (s.setBusy b) = failed tx h s := by
  simp [failed, completed]

@[simp] theorem sampled_setBusy (b : Bool) (s : State) : sampled (s.setBusy b) = (sampled s).setBusy b := by
  simp only [sampled, takeSample_env_congr (s := s.setBusy b) (t := s) rfl]
  rfl

@[simp] theorem clockSample_setBusy (b : Bool) (s : State) : clockSample (s.setBusy b) = clockSample s :=
  (takeSample_env_congr rfl).2

@[simp] theorem checkSampled_setBusy (b : Bool) (s : State) :
    checkSampled (s.setBusy b) = (checkSampled s).setBusy b := by
  simp only [checkSampled, sampled_setBusy, clockSample_setBusy]
  rfl

@[simp] theorem deviceAnswer_replied4_setBusy (tx tx' : List Byte) (b0 b1 b2 b3 : Byte) (b : Bool) (s : State) :
    deviceAnswer tx (replied4 tx' b0 b1 b2 b3 (s.setBusy b)) = deviceAnswer tx (replied4 tx' b0 b1 b2 b3 s) := by
  simp

@[simp] theorem rewritten_setBusy (a : Addr) (v : U32) (b0 b1 b2 b3 c0 c1 c2 c3 : Byte) (b : Bool) (s : State) :
    rewritten a v b0 b1 b2 b3 c0 c1 c2 c3 (s.setBusy b) = (rewritten a v b0 b1 b2 b3 c0 c1 c2 c3 s).setBusy b := by
  have h := replied4_setBusy (wire 0 a (v.setWidth 24)) c0 c1 c2 c3 b ((replied4 (wire 1 a 0) b0 b1 b2 b3 s).setTmp v)
  simp only [rewritten, replied4_setBusy]
  exact h

theorem rewriteAnswered_setBusy (a : Addr) (v : U32) (b0 b1 b2 b3 c0 c1 c2 c3 : Byte) (b : Bool) (s : State) :
    rewriteAnswered a v b0 b1 b2 b3 c0 c1 c2 c3 (s.setBusy b) ↔ rewriteAnswered a v b0 b1 b2 b3 c0 c1 c2 c3 s := by
  simp [rewriteAnswered]

@[simp] theorem replied4_cfg (tx : List Byte) (b0 b1 b2 b3 : Byte) (s : State) :
    (replied4 tx b0 b1 b2 b3 s).cfg = s.cfg := rfl

@[simp] theorem replied4_abandonAfter (tx : List Byte) (b0 b1 b2 b3 : Byte) (s : State) :
    (replied4 tx b0 b1 b2 b3 s).env.abandonAfter = s.env.abandonAfter := by
  simp [replied4, envAsked]

@[simp] theorem rewritten_cfg (a : Addr) (v : U32) (b0 b1 b2 b3 c0 c1 c2 c3 : Byte) (s : State) :
    (rewritten a v b0 b1 b2 b3 c0 c1 c2 c3 s).cfg = s.cfg := rfl

@[simp] theorem rewritten_abandonAfter (a : Addr) (v : U32) (b0 b1 b2 b3 c0 c1 c2 c3 : Byte) (s : State) :
    (rewritten a v b0 b1 b2 b3 c0 c1 c2 c3 s).env.abandonAfter = s.env.abandonAfter := by
  simp only [rewritten, replied4_abandonAfter]

/-! ### Transactions -/

theorem xfer_write_replied {a : Addr} {v : U32} {s : State} {b0 b1 b2 b3 : Byte} (h : s.env.abandonAfter = none)
    (ha : deviceAnswer (wire 0 a (v.setWidth 24)) s = .ok b0 b1 b2 b3) :
    xfer .write a v s = .run (payload b1 b2 b3) (replied4 (wire 0 a (v.setWidth 24)) b0 b1 b2 b3 s) := by
  rw [xfer, requestFrame_write, transact_replied4 h (by rfl) ha]

theorem xfer_read_replied {a : Addr} {s : State} {b0 b1 b2 b3 : Byte} (h : s.env.abandonAfter = none)
    (ha : deviceAnswer (wire 1 a 0) s = .ok b0 b1 b2 b3) :
    xfer .read a 0 s = .run (payload b1 b2 b3) (replied4 (wire 1 a 0) b0 b1 b2 b3 s) := by
  rw [xfer, requestFrame_read]
  exact transact_replied4 h (by rfl) ha

theorem xfer_rac_replied {a : Addr} {v : U32} {s : State} {b0 b1 b2 b3 : Byte} (h : s.env.abandonAfter = none)
    (ha : deviceAnswer (wire 2 a (v.setWidth 24)) s = .ok b0 b1 b2 b3) :
    xfer .readAndClear a v s = .run (payload b1 b2 b3) (replied4 (wire 2 a (v.setWidth 24)) b0 b1 b2 b3 s) := by
  rw [xfer, requestFrame_readAndClear, transact_replied4 h (by rfl) ha]

theorem xfer_write_failed {a : Addr} {v : U32} {s : State} (h : s.env.abandonAfter = none)
    (ha : deviceAnswer (wire 0 a (v.setWidth 24)) s = .fail) :
    xfer .write a v s = .ended (failed (wire 0 a (v.setWidth 24)) (0#2 ++ a) s) := by
  rw [xfer, requestFrame_write, transact_failed h ha, headerByte_wire]
  rfl

theorem xfer_read_failed {a : Addr} {s : State} (h : s.env.abandonAfter = none)
    (ha : deviceAnswer (wire 1 a 0) s = .fail) :
    xfer .read a 0 s = .ended (failed (wire 1 a 0) (1#2 ++ a) s) := by
  rw [xfer, requestFrame_read]
  exact transact_failed h ha

theorem xfer_rac_failed {a : Addr} {v : U32} {s : State} (h : s.env.abandonAfter = none)
    (ha : deviceAnswer (wire 2 a (v.setWidth 24)) s = .fail) :
    xfer .readAndClear a v s = .ended (failed (wire 2 a (v.setWidth 24)) (2#2 ++ a) s) := by
  rw [xfer, requestFrame_readAndClear, transact_failed h ha, headerByte_wire]
  rfl

/-- A WRITE behind its check, answered Ok (R79, R87). -/
theorem writeSeq_replied {a : Addr} {v : U32} {s : State} {b0 b1 b2 b3 : Byte} (h : s.env.abandonAfter = none)
    (hw : s.cfg.enforceWritable = true → writable a = true)
    (ha : deviceAnswer (wire 0 a (v.setWidth 24)) s = .ok b0 b1 b2 b3) :
    writeSeq a v s = .run (payload b1 b2 b3) (replied4 (wire 0 a (v.setWidth 24)) b0 b1 b2 b3 s) := by
  rw [writeSeq, checkWritable_passes hw, andThen_run, xfer_write_replied h ha]

/-- A WRITE behind its check that fails (R79, R108). -/
theorem writeSeq_failed {a : Addr} {v : U32} {s : State} (h : s.env.abandonAfter = none)
    (hw : s.cfg.enforceWritable = true → writable a = true)
    (ha : deviceAnswer (wire 0 a (v.setWidth 24)) s = .fail) :
    writeSeq a v s = .ended (failed (wire 0 a (v.setWidth 24)) (0#2 ++ a) s) := by
  rw [writeSeq, checkWritable_passes hw, andThen_run, xfer_write_failed h ha]

/-- A WRITE that its check refuses (R87, R106). -/
theorem writeSeq_refused {a : Addr} {v : U32} {s : State} (he : s.cfg.enforceWritable = true) (hw : writable a = false) :
    writeSeq a v s = .ended (completed .notWritable (a.setWidth 32) false s) := by
  simp [writeSeq, checkWritable, he, hw, raise, finish_eq_completed]

/-! ### Frame pairs -/

theorem readThenWrite_rewritten {a : Addr} {f : U32 → U32} {s : State} {b0 b1 b2 b3 c0 c1 c2 c3 : Byte}
    (h : s.env.abandonAfter = none)
    (ha : rewriteAnswered a (f (payload b1 b2 b3)) b0 b1 b2 b3 c0 c1 c2 c3 s) :
    readThenWrite a f s = .run () (rewritten a (f (payload b1 b2 b3)) b0 b1 b2 b3 c0 c1 c2 c3 s) := by
  simp only [readThenWrite, xfer_read_replied h ha.1, andThen_run]
  rw [xfer_write_replied (b0 := c0) (b1 := c1) (b2 := c2) (b3 := c3) (by simpa using h)
    (by simpa using ha.2)]
  rfl

theorem modifySeq_rewritten {a : Addr} {mask data : U32} {s : State} {b0 b1 b2 b3 c0 c1 c2 c3 : Byte}
    (h : s.env.abandonAfter = none) (hw : s.cfg.enforceWritable = true → writable a = true)
    (ha : rewriteAnswered a (merged mask data (payload b1 b2 b3)) b0 b1 b2 b3 c0 c1 c2 c3 s) :
    modifySeq a mask data s
      = .run () (rewritten a (merged mask data (payload b1 b2 b3)) b0 b1 b2 b3 c0 c1 c2 c3 s) := by
  rw [modifySeq, checkWritable_passes hw, andThen_run]
  exact readThenWrite_rewritten h ha

end Sys2Proof.Machine
end

