-- ==== Sys2Proof/Laws/Blind.lean ====
section
/-! SUPPORT. The configuration values that no rule of the block reads (the device's time limits, the serial clock rate; R118, R133): the
shared operations of Machine/Ops.lean do the same whatever they are. -/

namespace Sys2Proof.Machine

/-- A state with other values of SPI_CLOCK_HZ and the device's time limits. -/
def retimed (hz : Nat) (limits : Table4) (limit : U32) (s : State) : State :=
  { s with cfg := { s.cfg with
      spiClockHz := hz, wdDeviceTimeoutMs := limits, wdDeviceTimeoutDefaultMs := limit } }

@[simp] theorem retimed_env (hz : Nat) (limits : Table4) (limit : U32) (s : State) :
    (retimed hz limits limit s).env = s.env := rfl

/-- A piece of a sequence carried over to other states. -/
def Seq.carry {α : Type} (f : State → State) : Seq α → Seq α
  | .run a s => .run a (f s)
  | .ended s => .ended (f s)

@[simp] theorem carry_run {α : Type} (f : State → State) (a : α) (s : State) :
    Seq.carry f (.run a s) = .run a (f s) := rfl

@[simp] theorem carry_ended {α : Type} (f : State → State) (s : State) :
    Seq.carry f (.ended s : Seq α) = .ended (f s) := rfl

/-- Carrying over goes through a sequence when each of its pieces carries over. -/
theorem andThen_carry {α β : Type} {f : State → State} {m m' : Seq α} {k : α → State → Seq β} (hm : m' = m.carry f)
    (hk : ∀ a s, k a (f s) = (k a s).carry f) : andThen m' k = (andThen m k).carry f := by
  subst hm
  cases m with
  | run a s => exact hk a s
  | ended s => rfl

variable (hz : Nat) (limits : Table4) (limit : U32)

theorem primitive_retimed (s : State) :
    primitive (retimed hz limits limit s) = (primitive s).carry (retimed hz limits limit) := by
  rcases h : s.env.abandonAfter with _ | _ | n <;> simp only [primitive, retimed_env, h] <;> rfl

theorem refReply_retimed (c : Cfg) (d : RefDevice) (tx : List Byte) :
    refReply { c with spiClockHz := hz, wdDeviceTimeoutMs := limits, wdDeviceTimeoutDefaultMs := limit } d tx
      = refReply c d tx := rfl

theorem deviceAnswer_retimed (tx : List Byte) (s : State) :
    deviceAnswer tx (retimed hz limits limit s) = deviceAnswer tx s := rfl

theorem askDevice_retimed (tx : List Byte) (s : State) :
    askDevice tx (retimed hz limits limit s) = retimed hz limits limit (askDevice tx s) := by
  rcases ha : s.env.answers with _ | ⟨a, rest⟩
  · rcases hd : s.env.device with _ | d <;> simp only [askDevice, retimed_env, ha, hd] <;> rfl
  · simp only [askDevice, retimed_env, ha]; rfl

theorem transact_retimed (tx : List Byte) (s : State) :
    transact tx (retimed hz limits limit s) = (transact tx s).carry (retimed hz limits limit) := by
  refine andThen_carry (primitive_retimed hz limits limit s) fun _ t => ?_
  simp only [deviceAnswer_retimed, askDevice_retimed]
  split <;> rfl

theorem clockSample_retimed (s : State) : clockSample (retimed hz limits limit s) = clockSample s := rfl

theorem takeSample_retimed (s : State) :
    takeSample (retimed hz limits limit s) = retimed hz limits limit (takeSample s) := by
  rcases h : s.env.samples with _ | ⟨t, rest⟩ <;> simp only [takeSample, retimed_env, h] <;> rfl

theorem sampleNow_retimed (s : State) :
    sampleNow (retimed hz limits limit s) = (sampleNow s).carry (retimed hz limits limit) := by
  refine andThen_carry (primitive_retimed hz limits limit s) fun _ t => ?_
  simp only [takeSample_retimed, clockSample_retimed]
  rfl

theorem sleep1_retimed (s : State) :
    sleep1 (retimed hz limits limit s) = (sleep1 s).carry (retimed hz limits limit) :=
  andThen_carry (primitive_retimed hz limits limit s) fun _ _ => rfl

theorem xfer_retimed (op : Op) (a : Addr) (v : U32) (s : State) :
    xfer op a v (retimed hz limits limit s) = (xfer op a v s).carry (retimed hz limits limit) :=
  transact_retimed hz limits limit _ s

theorem checkWritable_retimed (a : Addr) (s : State) :
    checkWritable a (retimed hz limits limit s) = (checkWritable a s).carry (retimed hz limits limit) := by
  cases h : (s.cfg.enforceWritable && !writable a) <;>
    simp only [checkWritable, show (retimed hz limits limit s).cfg.enforceWritable = s.cfg.enforceWritable from rfl, h] <;> rfl

theorem writeSeq_retimed (a : Addr) (v : U32) (s : State) :
    writeSeq a v (retimed hz limits limit s) = (writeSeq a v s).carry (retimed hz limits limit) :=
  andThen_carry (checkWritable_retimed hz limits limit a s) fun _ t => xfer_retimed hz limits limit .write a v t

theorem readThenWrite_retimed (a : Addr) (f : U32 → U32) (s : State) :
    readThenWrite a f (retimed hz limits limit s) = (readThenWrite a f s).carry (retimed hz limits limit) :=
  andThen_carry (xfer_retimed hz limits limit _ _ _ s) fun t u =>
    andThen_carry (xfer_retimed hz limits limit .write a (f t) (u.setTmp (f t))) fun _ _ => rfl

theorem modifySeq_retimed (a : Addr) (mask data : U32) (s : State) :
    modifySeq a mask data (retimed hz limits limit s) = (modifySeq a mask data s).carry (retimed hz limits limit) :=
  andThen_carry (checkWritable_retimed hz limits limit _ s) fun _ _ => readThenWrite_retimed hz limits limit _ _ _

/-- A command carries over when its body does. -/
theorem runCommand_retimed {body : State → Seq (U32 × Bool)} (s : State)
    (h : ∀ t, body (retimed hz limits limit t) = (body t).carry (retimed hz limits limit)) :
    runCommand body (retimed hz limits limit s) = retimed hz limits limit (runCommand body s) := by
  have hb : body ((retimed hz limits limit s).setBusy true) = (body (s.setBusy true)).carry (retimed hz limits limit) :=
    h (s.setBusy true)
  cases hf : s.faulted <;> simp only [runCommand, show (retimed hz limits limit s).faulted = s.faulted from rfl, hf, hb]
  · cases body (s.setBusy true) <;> rfl
  · rfl

end Sys2Proof.Machine
end

