-- ==== Sys2Proof/Laws/Watchdog.lean ====
section
/-! SUPPORT. The watchdog controller's shared sequences when the host's reset does not strike: the expiry test, one check, one refresh. -/

namespace Sys2Proof.Machine

theorem expired_eq (s : State) (now : U64) :
    expired s now = decide (s.wdInterval.toNat ≤ (now - s.wdLast).toNat) := by
  simp only [expired, BitVec.le_def, BitVec.toNat_setWidth]
  rw [Nat.mod_eq_of_lt (by omega)]

@[simp] theorem sampled_abandonAfter (s : State) : (sampled s).env.abandonAfter = s.env.abandonAfter := by
  simp [sampled]

@[simp] theorem checkSampled_abandonAfter (s : State) : (checkSampled s).env.abandonAfter = s.env.abandonAfter := by
  simp [checkSampled]

/-- One refresh answered Ok (R93). -/
theorem doRefresh_rewritten {s : State} {b0 b1 b2 b3 c0 c1 c2 c3 : Byte} (h : s.env.abandonAfter = none)
    (hw : s.cfg.enforceWritable = true → writable (trigReg s.cfg) = true)
    (ha : rewriteAnswered (trigReg s.cfg) (payload b1 b2 b3 ^^^ trigMask s.cfg) b0 b1 b2 b3 c0 c1 c2 c3 s) :
    doRefresh s = .run ()
      (rewritten (trigReg s.cfg) (payload b1 b2 b3 ^^^ trigMask s.cfg) b0 b1 b2 b3 c0 c1 c2 c3 s) := by
  rw [doRefresh, checkWritable_passes hw, andThen_run]
  exact readThenWrite_rewritten h ha

/-- A refresh whose first frame fails (R93, R108). -/
theorem doRefresh_failed {s : State} (h : s.env.abandonAfter = none)
    (hw : s.cfg.enforceWritable = true → writable (trigReg s.cfg) = true)
    (ha : deviceAnswer (wire 1 (trigReg s.cfg) 0) s = .fail) :
    doRefresh s = .ended (failed (wire 1 (trigReg s.cfg) 0) (1#2 ++ trigReg s.cfg) s) := by
  rw [doRefresh, checkWritable_passes hw, andThen_run, readThenWrite, xfer_read_failed h ha]
  rfl

/-- A check samples the clock and then decides (R92). -/
theorem wdCheckBody_ready {s : State} (h : s.env.abandonAfter = none) :
    wdCheckBody s = checkAt (clockSample s) (checkSampled s) := by
  rw [wdCheckBody, sampleNow_ready h, andThen_run]
  rfl

theorem wdCheckBody_notExpired {s : State} (h : s.env.abandonAfter = none)
    (hx : (clockSample s - s.wdLast).toNat < s.wdInterval.toNat) :
    wdCheckBody s = .run false (checkSampled s) := by
  have : ¬ expired (checkSampled s) (clockSample s) = true := by
    rw [expired_eq, decide_eq_true_eq]
    exact Nat.not_le.mpr hx
  rw [wdCheckBody_ready h, checkAt, if_neg this]

theorem wdCheckBody_stopped {s : State} (h : s.env.abandonAfter = none)
    (hx : s.wdInterval.toNat ≤ (clockSample s - s.wdLast).toNat) (hr : s.wdRun = false) :
    wdCheckBody s = .run true { checkSampled s with wdLast := clockSample s } := by
  have he : expired (checkSampled s) (clockSample s) = true := by
    rw [expired_eq, decide_eq_true_eq]
    exact hx
  have hn : ¬ (checkSampled s).wdRun = true := by
    rw [show (checkSampled s).wdRun = s.wdRun from rfl, hr]; decide
  rw [wdCheckBody_ready h, checkAt, if_pos he, if_neg hn]
  rfl

theorem wdCheckBody_running {s : State} (h : s.env.abandonAfter = none)
    (hx : s.wdInterval.toNat ≤ (clockSample s - s.wdLast).toNat) (hr : s.wdRun = true) :
    wdCheckBody s
      = andThen (doRefresh { checkSampled s with wdLast := clockSample s }) fun _ s => .run true s := by
  have he : expired (checkSampled s) (clockSample s) = true := by
    rw [expired_eq, decide_eq_true_eq]
    exact hx
  rw [wdCheckBody_ready h, checkAt, if_pos he, if_pos (show (checkSampled s).wdRun = true from hr)]
  rfl

end Sys2Proof.Machine
end

