-- ==== Sys2Proof/Laws/Closed.lean ====
section
/-! SUPPORT. One induction for all commands: a property of states that the environment primitives and the local updates keep is kept by
every shared sequence. `R` is what holds while a command runs, `E` what holds where it ends early, `ok` what requests it may send. -/

namespace Sys2Proof.Machine

/-- The state after an exchange that the device answered Ok, before the sequencer goes on. -/
def answered (tx : List Byte) (b0 b1 b2 b3 : Byte) (s : State) : State :=
  receive (parseResponse tx b0 b1 b2 b3).1 (parseResponse tx b0 b1 b2 b3).2
    (bracketed tx (.ok (responseBytes tx b0 b1 b2 b3)) (askDevice tx s))

/-- The state a TransportFault of a request leaves. -/
def faultedBy (tx : List Byte) (s : State) : State :=
  finish .transportFault ((headerByte tx).setWidth 32) false
    { bracketed tx .fail (askDevice tx s) with faulted := true }

/-- What the primitives and the local updates must keep. -/
structure Closed (ok : List Byte → Prop) (R E : State → Prop) : Prop where
  begins : ∀ s, R s → R (begun s)
  struck : ∀ s, R s → s.env.abandonAfter = some 0 → E s
  reply : ∀ tx b0 b1 b2 b3 s, ok tx → R s → R (answered tx b0 b1 b2 b3 s)
  fail : ∀ tx s, ok tx → R s → E (faultedBy tx s)
  never : ∀ tx s, ok tx → R s → E (hung tx (askDevice tx s))
  sample : ∀ s, R s → R ((takeSample s).record [.sample (clockSample s)])
  sleep : ∀ s, R s → R (s.record [.sleep])
  tmp : ∀ s v, R s → R (s.setTmp v)
  sum : ∀ s v, R s → R (s.setSum v)
  count : ∀ s v, R s → R (s.setI v)
  now : ∀ s v, R s → R (s.setNow v)

variable {ok : List Byte → Prop} {R E : State → Prop}

theorem primitive_meets (h : Closed ok R E) {s : State} (hs : R s) : Meets (primitive s) R E := by
  rcases primitive_cases s with hp | ⟨hp, ha⟩
  · rw [hp]; exact h.begins s hs
  · rw [hp]; exact h.struck s hs ha

theorem transact_meets (h : Closed ok R E) {tx : List Byte} {s : State} (ht : ok tx) (hs : R s) :
    Meets (transact tx s) R E := by
  refine meets_andThen (primitive_meets h hs) fun _ t htR => ?_
  split
  · exact h.reply tx _ _ _ _ t ht htR
  · exact h.fail tx t ht htR
  · exact h.never tx t ht htR

theorem xfer_meets (h : Closed ok R E) {op : Op} {a : Addr} {v : U32} {s : State}
    (ht : ok (requestFrame s.cfg.romShape op a v)) (hs : R s) : Meets (xfer op a v s) R E :=
  transact_meets h ht hs

theorem sampleNow_meets (h : Closed ok R E) {s : State} (hs : R s) : Meets (sampleNow s) R E :=
  meets_andThen (primitive_meets h hs) fun _ t ht => h.sample t ht

theorem sleep1_meets (h : Closed ok R E) {s : State} (hs : R s) : Meets (sleep1 s) R E :=
  meets_andThen (primitive_meets h hs) fun _ t ht => h.sleep t ht

/-- A read and a write of one register: `R` must fix the ROM shape or `ok` not depend on it, which `hr` and `hw` say. -/
theorem readThenWrite_meets (h : Closed ok R E) {a : Addr} {f : U32 → U32} {s : State}
    (hr : ok (wire 1 a 0)) (hw : ∀ p, ok (wire 0 a p)) (hs : R s) : Meets (readThenWrite a f s) R E := by
  refine meets_andThen (xfer_meets h (by simpa using hr) hs) fun t u hu => ?_
  refine meets_andThen (xfer_meets h (by simpa using hw _) (h.tmp _ _ hu)) fun _ v hv => hv

theorem checkWritable_meets {a : Addr} {s : State} (hs : R s)
    (hE : s.cfg.enforceWritable = true → writable a = false →
      E (finish .notWritable (a.setWidth 32) false s)) :
    Meets (checkWritable a s) R E := by
  unfold checkWritable
  split
  · rename_i hc
    simp only [Bool.and_eq_true, Bool.not_eq_true'] at hc
    exact hE hc.1 hc.2
  · exact hs

theorem modifySeq_meets (h : Closed ok R E) {a : Addr} {mask data : U32} {s : State}
    (hr : ok (wire 1 a 0)) (hw : (s.cfg.enforceWritable = true → writable a = true) → ∀ p, ok (wire 0 a p))
    (hE : s.cfg.enforceWritable = true → writable a = false → E (finish .notWritable (a.setWidth 32) false s))
    (hs : R s) : Meets (modifySeq a mask data s) R E := by
  unfold modifySeq checkWritable
  split
  · rename_i hc
    simp only [Bool.and_eq_true, Bool.not_eq_true'] at hc
    exact hE hc.1 hc.2
  · rename_i hc
    rw [andThen_run]
    refine readThenWrite_meets h hr (hw fun he => ?_) hs
    simpa [he] using hc

/-- A refresh, whether TRIG_REG passes CheckWritable or not (R87, R93). -/
theorem doRefresh_meets (h : Closed ok R E) {s : State}
    (hr : ok (wire 1 (trigReg s.cfg) 0))
    (hw : (s.cfg.enforceWritable = true → writable (trigReg s.cfg) = true) → ∀ p, ok (wire 0 (trigReg s.cfg) p))
    (hE : s.cfg.enforceWritable = true → writable (trigReg s.cfg) = false →
      E (finish .notWritable ((trigReg s.cfg).setWidth 32) false s))
    (hs : R s) : Meets (doRefresh s) R E := by
  unfold doRefresh checkWritable
  split
  · rename_i hc
    simp only [Bool.and_eq_true, Bool.not_eq_true'] at hc
    exact hE hc.1 hc.2
  · rename_i hc
    rw [andThen_run]
    refine readThenWrite_meets h hr (hw fun he => ?_) hs
    simpa [he] using hc

/-- What the checks of the watchdog add: the trigger register's requests may go out, its refusal is covered, and setting WD_LAST to an
expired sample keeps `R`. -/
structure CheckClosed (ok : List Byte → Prop) (R E : State → Prop) : Prop extends Closed ok R E where
  refused : ∀ s, R s → s.cfg.enforceWritable = true → writable (trigReg s.cfg) = false →
    E (finish .notWritable ((trigReg s.cfg).setWidth 32) false s)
  trigRead : ∀ s, R s → ok (wire 1 (trigReg s.cfg) 0)
  trigWrite : ∀ s p, R s → (s.cfg.enforceWritable = true → writable (trigReg s.cfg) = true) →
    ok (wire 0 (trigReg s.cfg) p)
  last : ∀ s, R s → expired s (clockSample s) = true →
    R (((takeSample s).record [.sample (clockSample s)]).setNow (clockSample s) |>.setLast (clockSample s))

/-- Sampling the clock does not change what a sample is held against (R91). -/
theorem expired_sampled (s : State) (now : U64) :
    expired (((takeSample s).record [.sample now]).setNow now) now = expired s now := by
  simp [expired, State.record, State.setNow]

theorem wdCheckBody_meets (h : CheckClosed ok R E) {s : State} (hs : R s) : Meets (wdCheckBody s) R E := by
  rcases primitive_cases s with hp | ⟨hp, ha⟩
  · have hb := h.begins s hs
    simp only [wdCheckBody, sampleNow, hp, andThen_run, checkAt, expired_sampled]
    split
    · rename_i hx
      have hl := h.last _ hb hx
      split
      · refine meets_andThen (doRefresh_meets h.toClosed ?_ ?_ ?_ hl) fun _ t ht => ht
        · exact h.trigRead _ hl
        · exact fun hw p => h.trigWrite _ p hl hw
        · exact h.refused _ hl
      · exact hl
    · exact h.now _ _ (h.sample _ hb)
  · simp only [wdCheckBody, sampleNow, hp, andThen_ended]
    exact h.struck s hs ha

theorem racFrames_meets (h : Closed ok R E) (list : List (Addr × U32)) (hr : ∀ a m p, (a, m) ∈ list → ok (wire 2 a p)) :
    ∀ s, R s → Meets (racFrames list s) R E := by
  induction list with
  | nil => exact fun s hs => hs
  | cons e rest ih =>
    intro s hs
    refine meets_andThen (xfer_meets h ?_ hs) fun _ t ht => ih (fun a m p hm => hr a m p (List.mem_cons_of_mem _ hm)) t ht
    rw [requestFrame_readAndClear]
    exact hr e.1 e.2 _ List.mem_cons_self

theorem maintainLoop_meets (h : CheckClosed ok R E) (n : Nat) : ∀ s, R s → Meets (maintainLoop n s) R E := by
  induction n with
  | zero => exact fun s hs => hs
  | succ n ih =>
    intro s hs
    refine meets_andThen (wdCheckBody_meets h hs) fun _ t ht => ?_
    exact meets_andThen (sleep1_meets h.toClosed ht) fun _ u hu => ih _ (h.count _ _ hu)

theorem averageLoop_meets (h : CheckClosed ok R E) {reg : Addr} {mask arg : U32} (hr : ok (wire 1 reg 0)) (n : Nat) :
    ∀ s, R s → Meets (averageLoop reg mask arg n s) R E := by
  induction n with
  | zero => exact fun s hs => hs
  | succ n ih =>
    intro s hs
    refine meets_andThen (xfer_meets h.toClosed (by simpa using hr) (h.count _ _ hs)) fun v t ht => ?_
    exact meets_andThen (wdCheckBody_meets h (h.sum _ _ ht)) fun _ u hu => ih u hu

end Sys2Proof.Machine
end

