-- ==== Sys2Proof/Laws/Checks.lean ====
section
/-! SUPPORT. What one watchdog check and its refresh can do (R91–R93), said once: for every answer of the device and a strike of the
host's reset, by what they add to the record of the ports; and exactly, when the device answers Ok. -/

namespace Sys2Proof.Machine

/-! ### The clock samples and refreshes of a history -/

@[simp] theorem samplesOf_nil : samplesOf [] = [] := rfl

theorem samplesOf_append (es fs : List Event) : samplesOf (es ++ fs) = samplesOf es ++ samplesOf fs := by
  simp [samplesOf]

theorem samplesOf_sample (c : U64) (es : List Event) : samplesOf (.sample c :: es) = c :: samplesOf es := rfl

/-- No refresh stands before the first clock sample. -/
theorem refreshedAt_quiet (trig : Addr) {es : List Event} (h : samplesOf es = []) (fs : List Event) :
    refreshedAt trig (es ++ fs) = refreshedAt trig fs := by
  induction es with
  | nil => rfl
  | cons e es ih =>
    have hs : samplesOf es = [] := by cases e <;> simp_all [samplesOf]
    rw [List.cons_append, refreshedAt, ih hs]
    cases e <;> simp_all [samplesOf, refreshSample]

/-- A sample with the READ of a refresh directly after it. -/
theorem refreshedAt_refresh (trig : Addr) (c : U64) {m : SpiMode} {r : Reply} {rest : List Event} (fs : List Event)
    (h : samplesOf rest = []) :
    refreshedAt trig (.sample c :: (.select :: .frame m (wire 1 trig 0) r :: rest) ++ fs) = c :: refreshedAt trig fs := by
  have hs : samplesOf (.select :: .frame m (wire 1 trig 0) r :: rest) = [] := by simpa [samplesOf] using h
  rw [List.cons_append, refreshedAt, refreshedAt_quiet trig hs]
  simp [refreshSample]

/-- A sample with anything but device-select after it. -/
theorem refreshedAt_skip (trig : Addr) (c : U64) {e : Event} (fs : List Event) (h : e ≠ .select) :
    refreshedAt trig (.sample c :: e :: fs) = refreshedAt trig (e :: fs) := by
  cases e <;> simp_all [refreshedAt, refreshSample]

/-- The result of a command is no refresh. -/
theorem refreshedAt_result (trig : Addr) (es : List Event) (r : Res) :
    refreshedAt trig (es ++ [.result r]) = refreshedAt trig es := by
  induction es with
  | nil => rfl
  | cons e es ih =>
    rw [List.cons_append, refreshedAt, refreshedAt, ih]
    congr 2
    rcases es with _ | ⟨x, _ | ⟨y, z⟩⟩
    · cases e <;> rfl
    · cases e <;> simp [refreshSample]
    · cases e <;> cases x <;> cases y <;> rfl

/-! ### For every answer of the device -/

/-- `t` is `s` with the events `es` added, and what a check reads as it was. -/
structure Adds (es : List Event) (s t : State) : Prop where
  trace : t.env.trace = s.env.trace ++ es
  last : t.wdLast = s.wdLast
  interval : t.wdInterval = s.wdInterval
  run : t.wdRun = s.wdRun
  cfg : t.cfg = s.cfg
  clock : t.env.clock = s.env.clock
  ready : s.env.abandonAfter = none → t.env.abandonAfter = none

theorem Adds.nil (s : State) : Adds [] s s := ⟨by simp, rfl, rfl, rfl, rfl, rfl, id⟩

theorem Adds.trans {es fs : List Event} {s t u : State} (h : Adds es s t) (k : Adds fs t u) : Adds (es ++ fs) s u :=
  ⟨by rw [k.trace, h.trace, List.append_assoc], k.last.trans h.last, k.interval.trans h.interval, k.run.trans h.run,
    k.cfg.trans h.cfg, k.clock.trans h.clock, fun ha => k.ready (h.ready ha)⟩

/-- One transaction: the host's reset strikes, or device-select and its frame come first and no clock sample follows. -/
theorem transact_adds (tx : List Byte) (s : State) :
    (s.env.abandonAfter = some 0 ∧ transact tx s = .ended s)
      ∨ ∃ m r rest, samplesOf rest = []
        ∧ Meets (transact tx s) (Adds (.select :: .frame m tx r :: rest) s) (Adds (.select :: .frame m tx r :: rest) s) := by
  rcases primitive_cases s with hp | ⟨hp, ha⟩
  · right
    simp only [transact, hp, andThen_run]
    split
    · rename_i b0 b1 b2 b3 h
      refine ⟨spiMode s.cfg, .ok (responseBytes tx b0 b1 b2 b3), [.deselect], rfl, ?_⟩
      constructor <;> simp +contextual [receive, bracketed, State.record, begun]
    · refine ⟨spiMode s.cfg, .fail, [.deselect, .result ⟨.transportFault, (headerByte tx).setWidth 32, false⟩], rfl, ?_⟩
      constructor <;> simp +contextual [finish, bracketed, State.record, begun, State.setBusy]
    · refine ⟨spiMode s.cfg, .never, [], rfl, ?_⟩
      constructor <;> simp +contextual [hung, State.record, begun, State.setBusy]
  · exact .inl ⟨ha, by simp only [transact, hp, andThen_ended]⟩

/-- What a refresh adds: it starts with the READ of TRIG_REG, unless the configuration is unchecked or the host's reset is due. -/
def Refreshes (s t : State) : Prop :=
  ∃ es, Adds es s t ∧ samplesOf es = []
    ∧ ((∃ m r rest, es = .select :: .frame m (wire 1 (trigReg s.cfg) 0) r :: rest)
      ∨ ((es = [] ∨ ∃ r, es = [.result r]) ∧ ¬ (cfgOk s.cfg = true ∧ s.env.abandonAfter = none)))

/-- Everything DoRefresh can do (R93). -/
theorem doRefresh_adds (s : State) : Meets (doRefresh s) (Refreshes s) (Refreshes s) := by
  unfold doRefresh checkWritable
  split
  · rename_i hc
    refine ⟨[.result ⟨.notWritable, (trigReg s.cfg).setWidth 32, false⟩], ?_, rfl, .inr ⟨.inr ⟨_, rfl⟩, fun h => ?_⟩⟩
    · constructor <;> simp [finish, State.record, State.setBusy]
    · simp [(cfgOk_writable h.1).1] at hc
  · rw [andThen_run, readThenWrite, xfer, requestFrame_read]
    rcases transact_adds (wire 1 (trigReg s.cfg) ((0 : U32).setWidth 24)) s with ⟨ha, hp⟩ | ⟨m, r, rest, hs, hm⟩
    · rw [hp]
      exact ⟨[], .nil s, rfl, .inr ⟨.inl rfl, by simp [ha]⟩⟩
    · have hread : samplesOf (.select :: .frame m (wire 1 (trigReg s.cfg) 0) r :: rest) = [] := by simpa [samplesOf] using hs
      revert hm
      cases transact (wire 1 (trigReg s.cfg) ((0 : U32).setWidth 24)) s with
      | ended t => exact fun hm => ⟨_, hm, hread, .inl ⟨m, r, rest, rfl⟩⟩
      | run d t =>
        intro hm
        rw [andThen_run, xfer, requestFrame_write]
        have hm' : Adds (.select :: .frame m (wire 1 (trigReg s.cfg) 0) r :: rest) s (t.setTmp (toggled s.cfg d)) :=
          ⟨hm.trace, hm.last, hm.interval, hm.run, hm.cfg, hm.clock, hm.ready⟩
        rcases transact_adds (wire 0 (trigReg s.cfg) ((toggled s.cfg d).setWidth 24)) (t.setTmp (toggled s.cfg d)) with
          ⟨ha, hp⟩ | ⟨m', r', rest', hs', hm2⟩
        · rw [hp]
          exact ⟨_, hm', hread, .inl ⟨m, r, rest, rfl⟩⟩
        · have hwrite : samplesOf (.select :: .frame m' (wire 0 (trigReg s.cfg) ((toggled s.cfg d).setWidth 24)) r' :: rest') = [] := by
            simpa [samplesOf] using hs'
          have key : ∀ u, Adds (.select :: .frame m' (wire 0 (trigReg s.cfg) ((toggled s.cfg d).setWidth 24)) r' :: rest')
              (t.setTmp (toggled s.cfg d)) u → Refreshes s u := fun u hu =>
            ⟨_, hm'.trans hu, by rw [samplesOf_append, hread, hwrite]; rfl, .inl ⟨m, r, _, rfl⟩⟩
          exact meets_andThen (hm2.imp key key) fun _ u hu => hu

/-- The state in which a check decides: the clock sampled, the sample in CUR.now (R92). -/
def checkStart (s : State) : State :=
  ((takeSample (begun s)).record [.sample (clockSample (begun s))]).setNow (clockSample (begun s))

@[simp] theorem checkStart_trace (s : State) :
    (checkStart s).env.trace = s.env.trace ++ [.sample (clockSample (begun s))] := by
  simp [checkStart, State.record, State.setNow, begun]

@[simp] theorem checkStart_clock (s : State) : (checkStart s).env.clock = clockSample (begun s) := by
  simp [checkStart, State.record, State.setNow]

@[simp] theorem checkStart_wdLast (s : State) : (checkStart s).wdLast = s.wdLast := by
  simp [checkStart, State.record, State.setNow, begun]

@[simp] theorem checkStart_wdInterval (s : State) : (checkStart s).wdInterval = s.wdInterval := by
  simp [checkStart, State.record, State.setNow, begun]

@[simp] theorem checkStart_wdRun (s : State) : (checkStart s).wdRun = s.wdRun := by
  simp [checkStart, State.record, State.setNow, begun]

@[simp] theorem checkStart_cfg (s : State) : (checkStart s).cfg = s.cfg := by
  simp [checkStart, State.record, State.setNow, begun]

@[simp] theorem checkStart_abandonAfter (s : State) :
    (checkStart s).env.abandonAfter = s.env.abandonAfter.map (· - 1) := by
  simp [checkStart, State.record, State.setNow, begun]

/-- The sample of a check lies no earlier than the last one (R116). -/
theorem clock_le_checkStart (s : State) : s.env.clock ≤ clockSample (begun s) :=
  clock_le_clockSample (begun s)

/-- The expiry test of a check, on what stood before it (R91). -/
theorem expired_checkStart (s : State) :
    expired (checkStart s) (clockSample (begun s))
      = decide (s.wdInterval.setWidth 64 ≤ clockSample (begun s) - s.wdLast) := by
  simp [expired]

/-- A check is struck by the host's reset, or decides by its clock sample. -/
theorem wdCheckBody_cases (s : State) :
    (s.env.abandonAfter = some 0 ∧ wdCheckBody s = .ended s)
      ∨ wdCheckBody s = checkAt (clockSample (begun s)) (checkStart s) := by
  rcases primitive_cases s with hp | ⟨hp, ha⟩
  · exact .inr (by simp only [wdCheckBody, sampleNow, hp, andThen_run]; rfl)
  · exact .inl ⟨ha, by simp only [wdCheckBody, sampleNow, hp, andThen_ended]⟩

/-! ### When the device answers Ok -/

/-- The host's reset is not due, and at least `n` answers are scripted, all of them Ok. -/
structure Serving (n : Nat) (s : State) : Prop where
  ready : s.env.abandonAfter = none
  enough : n ≤ s.env.answers.length
  ok : ∀ a ∈ s.env.answers, ∃ b : Rx4, a = rxAnswer b

theorem Serving.mono {n m : Nat} {s : State} (h : Serving n s) (hm : m ≤ n) : Serving m s :=
  ⟨h.ready, Nat.le_trans hm h.enough, h.ok⟩

/-- One exchange of a 4-byte request uses up one answer. -/
theorem replied4_serving {n : Nat} {s : State} (h : Serving (n + 1) s) (tx : List Byte) :
    ∃ b : Rx4, deviceAnswer tx s = rxAnswer b ∧ Serving n (replied4 tx b.1 b.2.1 b.2.2.1 b.2.2.2 s)
      ∧ s.env.answers = rxAnswer b :: (replied4 tx b.1 b.2.1 b.2.2.1 b.2.2.2 s).env.answers := by
  rcases ha : s.env.answers with _ | ⟨x, rest⟩
  · have := h.enough; simp [ha] at this
  · obtain ⟨b, rfl⟩ := h.ok x (by simp [ha])
    have he : (askDevice tx s).env.answers = rest := by simp [askDevice, ha]
    have hn := h.enough
    refine ⟨b, by simp [deviceAnswer, ha], ⟨by simpa using h.ready, ?_, fun a hm => h.ok a ?_⟩, ?_⟩
    · rw [ha, List.length_cons] at hn
      simpa [replied4, envAsked, he] using Nat.le_of_succ_le_succ hn
    · have hm : a ∈ rest := by rw [← he]; exact hm
      simp [ha, hm]
    · simp [replied4, envAsked, he]

@[simp] theorem replied4_trace (tx : List Byte) (b : Rx4) (s : State) :
    (replied4 tx b.1 b.2.1 b.2.2.1 b.2.2.2 s).env.trace = s.env.trace ++ bracket s.cfg tx b := rfl

@[simp] theorem replied4_clock (tx : List Byte) (b0 b1 b2 b3 : Byte) (s : State) :
    (replied4 tx b0 b1 b2 b3 s).env.clock = s.env.clock := by
  simp [replied4, envAsked]

@[simp] theorem replied4_samples (tx : List Byte) (b0 b1 b2 b3 : Byte) (s : State) :
    (replied4 tx b0 b1 b2 b3 s).env.samples = s.env.samples := by
  simp [replied4, envAsked]

/-- A scripted clock sample that does not go back is the sample taken (R116). -/
theorem clockSample_scripted {s : State} {c : U64} {rest : List U64} (h : s.env.samples = c :: rest) :
    (takeSample s).env.samples = rest ∧ (s.env.clock ≤ c → clockSample s = c) := by
  simp only [takeSample, clockSample, h]
  exact ⟨trivial, fun hc => if_neg (by rw [BitVec.lt_def]; rw [BitVec.le_def] at hc; omega)⟩

end Sys2Proof.Machine
end

