-- ==== Sys2Proof/Laws/Commands.lean ====
section
/-! SUPPORT. One lemma for every command of the command port and one for every frame form: what the primitives and the updates keep,
the whole instruction keeps. -/

namespace Sys2Proof.Machine

/-- The addresses an instruction puts through CheckWritable (R87). -/
def guards (c : Cfg) : Instr → Addr → Prop
  | .write reg _, a => a = reg
  | .modify reg _ _, a => a = reg
  | .fWrite addr _, a => a = addr
  | .wdCheck, a | .wdRefresh, a | .maintain _, a | .readAvg _ _ _, a => a = trigReg c
  | .wdSetInterval _, a => a = configAddr ∨ a = c.wdSelReg
  | .modeSet _, a => a = c.modeReg
  | .read _, _ | .rac _ _, _ | .racList _, _ | .readRom _, _ | .isWritable _, _ | .getGsb, _ => False
  | .wdEnable, _ | .wdDisable, _ | .reserved _, _ => False
  | .fRead _ _, _ | .fReadAndClear _ _, _ | .fDeviceInfo _ _, _ | .fDeviceInfo2 _ _, _ => False
  | .fResponse4 _ _, _ | .fResponse2 _ _, _ => False

/-- In a checked configuration only WRITE, MODIFY and a WRITE frame (log 9) can be refused with NOT_WRITABLE (R106, R122). -/
theorem guards_writable {c : Cfg} (hc : cfgOk c = true) {i : Instr} {a : Addr} (hg : guards c i a)
    (hw : ∀ reg data, i ≠ .write reg data) (hm : ∀ reg mask data, i ≠ .modify reg mask data)
    (hf : ∀ addr payload, i ≠ .fWrite addr payload) : writable a = true := by
  have h := cfgOk_writable hc
  cases i with
  | write reg data => exact absurd rfl (hw reg data)
  | modify reg mask data => exact absurd rfl (hm reg mask data)
  | fWrite addr payload => exact absurd rfl (hf addr payload)
  | wdCheck | wdRefresh | maintain | readAvg => simp only [guards] at hg; rw [hg]; exact h.1
  | wdSetInterval arg =>
    simp only [guards] at hg
    rcases hg with hg | hg
    · rw [hg]; exact h.2.2.2
    · rw [hg]; exact h.2.1
  | modeSet arg => simp only [guards] at hg; rw [hg]; exact h.2.2.1
  | read | rac | racList | readRom | isWritable | getGsb | wdEnable | wdDisable | reserved | fRead | fReadAndClear | fDeviceInfo | fDeviceInfo2 | fResponse4 | fResponse2 => simp [guards] at hg

/-- The commands that write WD_RUN (R18). -/
def setsRun (i : Instr) : Prop :=
  i = .wdEnable ∨ i = .wdDisable ∨ ∃ arg, i = .modeSet arg

/-- The command that writes WD_INTERVAL (R19). -/
def setsInterval (i : Instr) : Prop :=
  ∃ arg, i = .wdSetInterval arg

/-- The commands that write WD_LAST (R20). -/
def setsLast (i : Instr) : Prop :=
  i = .wdCheck ∨ (∃ arg, i = .maintain arg) ∨ (∃ reg mask arg, i = .readAvg reg mask arg) ∨ setsInterval i

/-- What the primitives, the updates and the refusals of the command `i` must keep: `c` is the configuration, `ok` the requests that
may go out. -/
structure CommandClosed (i : Instr) (c : Cfg) (ok : List Byte → Prop) (R E : State → Prop) : Prop
    extends Closed ok R E where
  same : ∀ s, R s → s.cfg = c
  okRead : ∀ a, ok (wire 1 a 0)
  okWrite : ∀ a p, guards c i a → (c.enforceWritable = true → writable a = true) → ok (wire 0 a p)
  okRac : ∀ a p, storesTo c i a → ok (wire 2 a p)
  okRom : ∀ a, ok (requestFrame c.romShape .deviceInfo a 0)
  run : setsRun i → ∀ s b, R s → R (s.setRun b)
  interval : setsInterval i → ∀ s arg, R s → R (s.setInterval (intervalOf c arg))
  expiry : setsLast i → ∀ s, R s → expired s (clockSample s) = true →
    R (((takeSample s).record [.sample (clockSample s)]).setLast (clockSample s))
  restart : setsInterval i → ∀ s, R s → R (((takeSample s).record [.sample (clockSample s)]).setLast (clockSample s))
  notWritable : ∀ s a, guards c i a → R s → c.enforceWritable = true → writable a = false →
    E (finish .notWritable (a.setWidth 32) false s)
  outOfRange : ∀ s d, R s → E (finish .invalidSelector d false s)

variable {i : Instr} {c : Cfg} {ok : List Byte → Prop} {R E : State → Prop}

theorem CommandClosed.check (h : CommandClosed i c ok R E) (hg : guards c i (trigReg c)) (hl : setsLast i) : CheckClosed ok R E where
  toClosed := h.toClosed
  refused s hs := by rw [h.same s hs]; exact h.notWritable s _ hg hs
  trigRead s _ := h.okRead _
  trigWrite s p hs := by rw [h.same s hs]; exact h.okWrite _ p hg
  last s hs hx := h.now _ _ (h.expiry hl s hs hx)

/-- One read-modify-write of a register that may be refused. -/
theorem modifySeq_leaves (h : CommandClosed i c ok R E) {a : Addr} {mask data : U32} {s : State} (hg : guards c i a) (hs : R s) :
    Meets (modifySeq a mask data s) R E := by
  refine modifySeq_meets h.toClosed (h.okRead _) ?_ ?_ hs
  · intro hw p
    exact h.okWrite _ p hg (by rw [← h.same s hs]; exact hw)
  · rw [h.same s hs]
    exact h.notWritable s a hg hs

theorem checkRange_meets (h : CommandClosed i c ok R E) {arg : U32} {max : Nat} {s : State} (hs : R s) :
    Meets (checkRange arg max s) R E := by
  unfold checkRange
  split
  · exact h.outOfRange s arg hs
  · exact hs

theorem intervalFrames_meets (h : CommandClosed i c ok R E) {arg : U32} {s : State} (hg : guards c i configAddr) (hsel : guards c i c.wdSelReg)
    (hs : R s) : Meets (intervalFrames arg s) R E := by
  refine meets_andThen (modifySeq_leaves h hg hs) fun _ t ht => ?_
  exact modifySeq_leaves h (by rw [h.same t ht]; exact hsel) ht

theorem setInterval_sample_meets (h : CommandClosed i c ok R E) {arg : U32} {s : State} (hi : setsInterval i) (hs : R s) :
    Meets (andThen (sampleNow (s.setInterval (intervalOf s.cfg arg))) fun now s =>
      (.run (0, false) (s.setLast now) : Seq (U32 × Bool))) R E := by
  have hi' : R (s.setInterval (intervalOf s.cfg arg)) := by rw [h.same s hs]; exact h.interval hi s arg hs
  rcases primitive_cases (s.setInterval (intervalOf s.cfg arg)) with hp | ⟨hp, ha⟩
  · simp only [sampleNow, hp, andThen_run]
    exact h.restart hi _ (h.begins _ hi')
  · simp only [sampleNow, hp, andThen_ended]
    exact h.struck _ hi' ha

/-- A WRITE behind its writability check (R79, R87), as WRITE and the WRITE frame run it. -/
theorem writeSeq_meets (h : CommandClosed i c ok R E) {a : Addr} {v : U32} {s : State} (hg : guards c i a) (hs : R s) :
    Meets (writeSeq a v s) R E := by
  unfold writeSeq checkWritable
  split
  · rename_i hc
    rw [h.same s hs] at hc
    simp only [Bool.and_eq_true, Bool.not_eq_true'] at hc
    exact h.notWritable s a hg hs hc.1 hc.2
  · rename_i hc
    rw [h.same s hs] at hc
    rw [andThen_run]
    refine xfer_meets h.toClosed ?_ hs
    rw [requestFrame_write]
    exact h.okWrite _ _ hg fun hen => by simpa [hen] using hc

/-- What every command of the command port leaves: `P` of the end of a command whose body ran through, of an early end, of FAULTED's
refusal, and of the three commands that ask nothing of FAULTED. -/
theorem exec_command_leaves (h : CommandClosed i c ok R E) {P : State → Prop} {s t : State}
    (hi : isFrame i = false)
    (hstart : s.faulted = false → R (s.setBusy true))
    (hdone : ∀ t d f, R t → P (completed .ok d f t)) (hearly : ∀ t, E t → P t)
    (hfaulted : s.faulted = true → P (completed .faulted 0 false s))
    (hquiet : ∀ d f, P (completed .ok d f s)) (hreserved : ∀ d, P (completed .invalidSelector d false s))
    (he : exec i s = .next t) : P t := by
  have key : ∀ body : State → Seq (U32 × Bool), (∀ u, R u → Meets (body u) R E) → P (runCommand body s) := by
    intro body hb
    refine runCommand_meets hfaulted fun hf => ?_
    exact (hb _ (hstart hf)).imp (fun t ht d f => hdone t d f ht) hearly
  cases i with
  | isWritable reg => simp only [exec, execIsWritable, Host.Outcome.next.injEq] at he; subst he; exact hquiet _ _
  | getGsb => simp only [exec, execGetGsb, Host.Outcome.next.injEq] at he; subst he; exact hquiet _ _
  | reserved code => simp only [exec, execReserved, Host.Outcome.next.injEq] at he; subst he; exact hreserved _
  | write reg data =>
    simp only [exec, execWrite, Host.Outcome.next.injEq] at he; subst he
    exact key _ fun u hu => meets_andThen (writeSeq_meets h rfl hu) fun _ v hv => hv
  | read reg =>
    simp only [exec, execRead, Host.Outcome.next.injEq] at he; subst he
    exact key _ fun u hu => meets_andThen (xfer_meets h.toClosed (by simpa using h.okRead _) hu) fun _ v hv => hv
  | modify reg mask data =>
    simp only [exec, execModify, Host.Outcome.next.injEq] at he; subst he
    exact key _ fun u hu => meets_andThen (modifySeq_leaves h rfl hu) fun _ v hv => hv
  | rac reg mask =>
    simp only [exec, execRac, Host.Outcome.next.injEq] at he; subst he
    exact key _ fun u hu => meets_andThen (xfer_meets h.toClosed (by simpa using h.okRac _ _ rfl) hu) fun _ v hv => hv
  | racList list =>
    simp only [exec, execRacList, Host.Outcome.next.injEq] at he; subst he
    exact key _ fun u hu => meets_andThen (racFrames_meets h.toClosed list (fun a m p hm => h.okRac a p ⟨m, hm⟩) u hu) fun _ v hv => hv
  | readRom addr =>
    simp only [exec, execReadRom, Host.Outcome.next.injEq] at he; subst he
    exact key _ fun u hu =>
      meets_andThen (xfer_meets h.toClosed (by rw [h.same u hu]; exact h.okRom _) hu) fun _ v hv => hv
  | wdCheck =>
    simp only [exec, execWdCheck, Host.Outcome.next.injEq] at he; subst he
    exact key _ fun u hu => meets_andThen (wdCheckBody_meets (h.check rfl (.inl rfl)) hu) fun _ v hv => hv
  | wdRefresh =>
    simp only [exec, execWdRefresh, Host.Outcome.next.injEq] at he; subst he
    refine key _ fun u hu => meets_andThen (doRefresh_meets h.toClosed (h.okRead _) ?_ ?_ hu) fun _ v hv => hv
    · rw [h.same u hu]
      exact fun hw p => h.okWrite _ p rfl hw
    · rw [h.same u hu]
      exact h.notWritable u _ rfl hu
  | wdSetInterval arg =>
    simp only [exec, execWdSetInterval, Host.Outcome.next.injEq] at he; subst he
    exact key _ fun u hu => meets_andThen (checkRange_meets h hu) fun _ v hv =>
      meets_andThen (intervalFrames_meets h (.inl rfl) (.inr rfl) hv) fun _ w hw => setInterval_sample_meets h ⟨_, rfl⟩ hw
  | wdEnable =>
    simp only [exec, execWdEnable, Host.Outcome.next.injEq] at he; subst he
    exact key _ fun u hu => h.run (.inl rfl) u true hu
  | wdDisable =>
    simp only [exec, execWdDisable, Host.Outcome.next.injEq] at he; subst he
    exact key _ fun u hu => h.run (.inr (.inl rfl)) u false hu
  | modeSet arg =>
    simp only [exec, execModeSet, Host.Outcome.next.injEq] at he; subst he
    refine key _ fun u hu => meets_andThen (checkRange_meets h hu) fun _ v hv => ?_
    refine meets_andThen (modifySeq_leaves h (by simp only [guards, h.same v hv]) hv) fun _ w hw => ?_
    split
    · exact h.run (.inr (.inr ⟨_, rfl⟩)) w false hw
    · exact hw
  | maintain arg =>
    simp only [exec, execMaintain, Host.Outcome.next.injEq] at he; subst he
    exact key _ fun u hu => meets_andThen (maintainLoop_meets (h.check rfl (.inr (.inl ⟨_, rfl⟩))) _ _ (h.count u 0 hu)) fun _ v hv => hv
  | readAvg reg mask arg =>
    simp only [exec, execReadAvg, Host.Outcome.next.injEq] at he; subst he
    exact key _ fun u hu => meets_andThen (checkRange_meets h hu) fun _ v hv =>
      meets_andThen (averageLoop_meets (h.check rfl (.inr (.inr (.inl ⟨_, _, _, rfl⟩)))) (h.okRead _) _ _ (h.count _ 0 (h.sum v 0 hv))) fun _ w hw => hw
  | fWrite | fRead | fReadAndClear | fDeviceInfo | fDeviceInfo2 | fResponse4 | fResponse2 =>
    simp [isFrame] at hi

/-- What a request frame run by itself leaves, of what its transaction leaves. -/
theorem runFrame_meets {P : State → Prop} {body : State → Seq U32} {s : State} (hfaulted : s.faulted = true → P s)
    (hb : s.faulted = false → Meets (body (s.setBusy true)) (fun t => P (t.setBusy false)) P) : P (runFrame body s) := by
  unfold runFrame
  by_cases hf : s.faulted
  · rw [if_pos hf]; exact hfaulted hf
  · rw [if_neg hf]
    have hm := hb (by simpa using hf)
    revert hm
    cases body (s.setBusy true) with
    | run a t => exact fun hm => hm
    | ended t => exact fun hm => hm

/-- What a frame form leaves: of a request, what one transaction leaves; of a response, what a reception leaves. -/
theorem exec_frame_leaves (h : CommandClosed i c ok R E) {P : State → Prop} {s t : State} (hi : isFrame i = true)
    (hstart : s.faulted = false → R (s.setBusy true)) (hdone : ∀ t, R t → P (t.setBusy false))
    (hearly : ∀ t, E t → P t) (hfaulted : s.faulted = true → P s)
    (hresponse : ∀ g d rx, s.faulted = false → (rx.length = 4 ∨ rx.length = 2) → rx.head? = some g → d.toNat < 2 ^ 24 →
      P ((receive g d s).record [.response rx]))
    (he : exec i s = .next t) : P t := by
  have resp : ∀ (rx : List Byte) (g : Byte) (d : U32), (rx.length = 4 ∨ rx.length = 2) → rx.head? = some g → d.toNat < 2 ^ 24 →
      P (runResponse rx g d s) := by
    intro rx g d hl hg hd
    unfold runResponse
    by_cases hf : s.faulted
    · rw [if_pos hf]; exact hfaulted hf
    · rw [if_neg hf]; exact hresponse g d rx (by simpa using hf) hl hg hd
  have req : ∀ body : State → Seq U32, (∀ u, R u → Meets (body u) R E) → P (runFrame body s) := fun body hb =>
    runFrame_meets hfaulted fun hf => (hb _ (hstart hf)).imp hdone hearly
  cases i with
  | fWrite a p =>
    simp only [exec, execFWrite, Host.Outcome.next.injEq] at he; subst he
    exact req _ fun u hu => writeSeq_meets h rfl hu
  | fRead a p =>
    simp only [exec, execFRead, Host.Outcome.next.injEq] at he; subst he
    exact req _ fun u hu => xfer_meets h.toClosed (by simpa using h.okRead _) hu
  | fReadAndClear a p =>
    simp only [exec, execFReadAndClear, Host.Outcome.next.injEq] at he; subst he
    exact req _ fun u hu => xfer_meets h.toClosed (by simpa using h.okRac _ _ rfl) hu
  | fDeviceInfo a p =>
    simp only [exec, execFDeviceInfo, Host.Outcome.next.injEq] at he; subst he
    exact req _ fun u hu => xfer_meets h.toClosed (by rw [h.same u hu]; exact h.okRom _) hu
  | fDeviceInfo2 a d =>
    simp only [exec, execFDeviceInfo2, Host.Outcome.next.injEq] at he; subst he
    exact req _ fun u hu => xfer_meets h.toClosed (by rw [h.same u hu]; exact h.okRom _) hu
  | fResponse4 g d =>
    simp only [exec, execFResponse4, Host.Outcome.next.injEq] at he; subst he
    refine resp _ g _ (.inl rfl) rfl ?_
    rw [BitVec.toNat_setWidth]
    omega
  | fResponse2 g d =>
    simp only [exec, execFResponse2, Host.Outcome.next.injEq] at he; subst he
    refine resp _ g _ (.inr rfl) rfl ?_
    rw [BitVec.toNat_setWidth]
    omega
  | write | read | modify | rac | racList | readRom | isWritable | getGsb | wdCheck | wdRefresh | wdSetInterval
  | wdEnable | wdDisable | modeSet | maintain | readAvg | reserved =>
    simp [isFrame] at hi

end Sys2Proof.Machine
end

