-- ==== Sys2Proof/Laws/Memory.lean ====
section
/-! SUPPORT. The reference device's memory: reads after writes, the canonical form kept by every operation, and the whole registers
laid out in it. -/

namespace Sys2Proof.Machine

/-! ### One byte -/

theorem read_consCell (a b : Nat) (v : Byte) (rest : Memory) (hb : a = b → rest.read b = unlistedByte) :
    (consCell a v rest).read b = if a = b then v else rest.read b := by
  unfold consCell
  split
  · rename_i hv
    split
    · rename_i hab
      rw [hb hab, hv]
    · rfl
  · rfl

/-- An address below the list is not listed. -/
theorem read_below (m : Memory) : ∀ lo a : Nat, wfFrom lo m = true → a < lo → m.read a = unlistedByte := by
  induction m with
  | nil => exact fun _ _ _ _ => rfl
  | cons c rest ih =>
    obtain ⟨k, v⟩ := c
    intro lo a h ha
    simp only [wfFrom, Bool.and_eq_true, decide_eq_true_eq] at h
    have hk : ¬ k = a := by omega
    rw [Memory.read, if_neg hk]
    exact ih (k + 1) a h.2 (by omega)

/-- A read after a write: the byte written at its address, the old byte everywhere else. -/
theorem read_write (m : Memory) (b : Byte) (a x : Nat) :
    ∀ lo : Nat, wfFrom lo m = true → (m.write a b).read x = if a = x then b else m.read x := by
  induction m with
  | nil =>
    intro lo _
    exact read_consCell a x b [] fun _ => rfl
  | cons c rest ih =>
    obtain ⟨k, v⟩ := c
    intro lo h
    simp only [wfFrom, Bool.and_eq_true, decide_eq_true_eq] at h
    unfold Memory.write
    split
    · rename_i hak
      refine read_consCell a x b _ fun hax => ?_
      have hkx : ¬ k = x := by omega
      rw [Memory.read, if_neg hkx]
      exact read_below rest (k + 1) x h.2 (by omega)
    · split
      · rename_i hak
        rw [read_consCell a x b rest fun hax => read_below rest (k + 1) x h.2 (by omega), Memory.read, hak]
        by_cases hkx : k = x <;> simp [hkx]
      · rename_i h1 h2
        rw [Memory.read, Memory.read, ih (k + 1) h.2]
        by_cases hkx : k = x
        · have : ¬ a = x := by omega
          simp [hkx, this]
        · simp [hkx]

theorem wfFrom_mono (m : Memory) (lo lo' : Nat) (h : wfFrom lo m = true) (hle : lo' ≤ lo) : wfFrom lo' m = true := by
  cases m with
  | nil => rfl
  | cons c rest =>
    obtain ⟨k, v⟩ := c
    simp only [wfFrom, Bool.and_eq_true, decide_eq_true_eq] at h ⊢
    exact ⟨⟨⟨by omega, h.1.1.2⟩, h.1.2⟩, h.2⟩

theorem wfFrom_consCell (lo a : Nat) (b : Byte) (rest : Memory) (hlo : lo ≤ a) (ha : a < 256)
    (h : wfFrom (a + 1) rest = true) : wfFrom lo (consCell a b rest) = true := by
  unfold consCell
  split
  · exact wfFrom_mono rest (a + 1) lo h (by omega)
  · rename_i hb
    simp [wfFrom, hlo, ha, h, hb]

/-- A write keeps the canonical form. -/
theorem wfFrom_write (m : Memory) (b : Byte) (a : Nat) (ha : a < 256) :
    ∀ lo : Nat, lo ≤ a → wfFrom lo m = true → wfFrom lo (m.write a b) = true := by
  induction m with
  | nil =>
    intro lo hlo _
    exact wfFrom_consCell lo a b [] hlo ha rfl
  | cons c rest ih =>
    obtain ⟨k, v⟩ := c
    intro lo hlo h
    have hh := h
    simp only [wfFrom, Bool.and_eq_true, decide_eq_true_eq] at hh
    unfold Memory.write
    split
    · rename_i hak
      refine wfFrom_consCell lo a b _ hlo ha ?_
      simp only [wfFrom, Bool.and_eq_true, decide_eq_true_eq]
      exact ⟨⟨⟨by omega, hh.1.1.2⟩, hh.1.2⟩, hh.2⟩
    · split
      · rename_i hak
        exact wfFrom_consCell lo a b _ hlo ha (by rw [hak]; exact hh.2)
      · simp only [wfFrom, Bool.and_eq_true, decide_eq_true_eq]
        exact ⟨hh.1, ih (k + 1) (by omega) hh.2⟩

theorem wf_write {m : Memory} (b : Byte) {a : Nat} (ha : a < 256) (h : m.wf = true) : (m.write a b).wf = true :=
  wfFrom_write m b a ha 0 (Nat.zero_le a) h

/-! ### Whole registers -/

theorem regBase_le (a : Addr) : regBase a + 2 < 192 := by
  unfold regBase
  omega

/-- Setting a register keeps the canonical form. -/
theorem wf_regWrite {m : Memory} (a : Addr) (v : U24) (h : m.wf = true) : (regWrite m a v).wf = true := by
  have hb := regBase_le a
  exact wf_write _ (by omega) (wf_write _ (by omega) (wf_write _ (by omega) h))

/-- A byte read after a register was set: the register's three bytes are the value's, every other byte is the old one. -/
theorem read_regWrite {m : Memory} (a : Addr) (v : U24) (h : m.wf = true) (x : Nat) :
    (regWrite m a v).read x
      = if regBase a + 2 = x then v.extractLsb' 0 8
        else if regBase a + 1 = x then v.extractLsb' 8 8
        else if regBase a = x then v.extractLsb' 16 8 else m.read x := by
  have hb := regBase_le a
  have h1 := wf_write (v.extractLsb' 16 8) (a := regBase a) (by omega) h
  have h2 := wf_write (v.extractLsb' 8 8) (a := regBase a + 1) (by omega) h1
  rw [regWrite, read_write _ _ _ _ 0 h2, read_write _ _ _ _ 0 h1, read_write _ _ _ _ 0 h]

/-- Setting a register leaves every byte outside its three as it was. -/
theorem read_regWrite_outside {m : Memory} (a : Addr) (v : U24) (h : m.wf = true) {x : Nat}
    (hx : x < regBase a ∨ regBase a + 2 < x) : (regWrite m a v).read x = m.read x := by
  rw [read_regWrite a v h]
  have h0 : ¬ regBase a + 2 = x := by omega
  have h1 : ¬ regBase a + 1 = x := by omega
  have h2 : ¬ regBase a = x := by omega
  simp [h0, h1, h2]

/-- A register just set reads as the value (R51). -/
theorem regRead_regWrite {m : Memory} (a : Addr) (v : U24) (h : m.wf = true) : regRead (regWrite m a v) a = v := by
  have h0 : ¬ regBase a + 2 = regBase a := by omega
  have h1 : ¬ regBase a + 1 = regBase a := by omega
  have h2 : ¬ regBase a + 2 = regBase a + 1 := by omega
  simp only [regRead, read_regWrite a v h, if_neg h0, if_neg h1, if_neg h2, if_true]
  apply BitVec.eq_of_getLsbD_eq
  intro i hi
  simp only [BitVec.getLsbD_append, BitVec.getLsbD_extractLsb']
  by_cases c0 : i < 8
  · simp [c0]
  · by_cases c1 : i < 16
    · have e2 : i - 8 < 8 := by omega
      have e3 : 8 + (i - 8) = i := by omega
      simp [c0, e2, e3]
    · have e2 : ¬ i - 8 < 8 := by omega
      have e4 : i - 8 - 8 < 8 := by omega
      have e3 : 16 + (i - 8 - 8) = i := by omega
      simp [c0, e2, e4, e3]

/-! ### The device -/

/-- Whatever the reference device is asked, its memory keeps the canonical form. -/
theorem wf_refReply (cfg : Cfg) (d : RefDevice) (tx : List Byte) (h : d.mem.wf = true) :
    (refReply cfg d tx).2.wf = true := by
  unfold refReply
  split
  · split
    · exact wf_regWrite _ _ h
    · exact h
    · exact wf_regWrite _ _ h
    · exact h
  · exact h
  · exact h

/-- Asking the device keeps the canonical form of its memory. -/
theorem wf_askDevice (tx : List Byte) (s : State) (h : s.env.device.wf = true) :
    (askDevice tx s).env.device.wf = true := by
  unfold askDevice
  split
  · exact h
  · split
    · rename_i d hd
      rw [hd] at h
      exact wf_refReply s.cfg d tx h
    · rename_i hd
      simpa [hd] using h

/-- Reset's device holds no memory of its own, which is canonical. -/
theorem wf_reset : State.reset.env.device.wf = true := rfl

end Sys2Proof.Machine
end

