-- ==== Sys2Proof/Laws/Device.lean ====
section
/-! SUPPORT. What the reference device (R51) answers to a request as the block builds it, and what one transaction with it leaves. -/

namespace Sys2Proof.Machine

theorem opOf_write (a : Addr) : opOf ((0 : BitVec 2) ++ a) = .write := by revert a; decide

theorem opOf_read (a : Addr) : opOf ((1 : BitVec 2) ++ a) = .read := by revert a; decide

theorem opOf_readAndClear (a : Addr) : opOf ((2 : BitVec 2) ++ a) = .readAndClear := by revert a; decide

theorem opOf_deviceInfo (a : Addr) : opOf ((3 : BitVec 2) ++ a) = .deviceInfo := by revert a; decide

/-- The address of a header is its bits 5:0 (R52). -/
theorem header_addr (op : BitVec 2) (a : Addr) : (op ++ a).setWidth 6 = a := by revert op a; decide

/-- A payload made of a register's three bytes is the register. -/
theorem payload_of_reg (v : U24) : payload (v.extractLsb' 16 8) (v.extractLsb' 8 8) (v.extractLsb' 0 8) = v.setWidth 32 := by
  rw [payload, payload_of_bytes]

theorem refReply_write (c : Cfg) (d : RefDevice) (a : Addr) (v : U24) :
    refReply c d (wire 0 a v) = (answerReg d (regRead d.mem a), regWrite d.mem a v) := by
  simp only [refReply, wire, opOf_write, header_addr, payload_of_bytes]

theorem refReply_read (c : Cfg) (d : RefDevice) (a : Addr) :
    refReply c d (wire 1 a 0) = (answerReg d (regRead d.mem a), d.mem) := by
  simp only [refReply, wire, opOf_read, header_addr]

theorem refReply_readAndClear (c : Cfg) (d : RefDevice) (a : Addr) (v : U24) :
    refReply c d (wire 2 a v)
      = (answerReg d (regRead d.mem a), regWrite d.mem a (regRead d.mem a &&& ~~~v)) := by
  simp only [refReply, wire, opOf_readAndClear, header_addr, payload_of_bytes]

/-- The reference device holds `mem` and answers next: no answer is scripted, and the host's reset does not strike. -/
def serves (d : RefDevice) (s : State) : Prop :=
  s.env.abandonAfter = none ∧ s.env.answers = [] ∧ s.env.device = .reference d

theorem deviceAnswer_serves {d : RefDevice} {s : State} (h : serves d s) (tx : List Byte) :
    deviceAnswer tx s = (refReply s.cfg d tx).1 := by
  simp only [deviceAnswer, h.2.1, h.2.2]

theorem serves_replied4 {d : RefDevice} {s : State} (h : serves d s) (tx : List Byte) (b0 b1 b2 b3 : Byte) :
    serves (refAfter s.cfg d tx) (replied4 tx b0 b1 b2 b3 s) := by
  refine ⟨?_, ?_, ?_⟩
  · simpa [replied4, envAsked] using h.1
  · simp [replied4, envAsked, askDevice, h.2.1, h.2.2]
  · simp [replied4, envAsked, askDevice, h.2.1, h.2.2]

/-- READ with the reference device (R51, R78). -/
theorem xfer_read_reference {d : RefDevice} {s : State} (h : serves d s) (a : Addr) :
    ∃ t, xfer .read a 0 s = .run ((regRead d.mem a).setWidth 32) t ∧ serves ⟨d.mem, d.gsbs.tail⟩ t
      ∧ t.cfg = s.cfg ∧ t.faulted = s.faulted := by
  have hq : deviceAnswer (wire 1 a 0) s = answerReg d (regRead d.mem a) := by rw [deviceAnswer_serves h, refReply_read]
  have hx := xfer_read_replied h.1 hq
  have hs := serves_replied4 h (wire 1 a 0) (nextGsb d) ((regRead d.mem a).extractLsb' 16 8)
    ((regRead d.mem a).extractLsb' 8 8) ((regRead d.mem a).extractLsb' 0 8)
  rw [payload_of_reg] at hx
  rw [refAfter, refReply_read] at hs
  exact ⟨_, hx, hs, rfl, rfl⟩

/-- WRITE with the reference device (R51, R78). -/
theorem xfer_write_reference {d : RefDevice} {s : State} (h : serves d s) (a : Addr) (v : U32) :
    ∃ x t, xfer .write a v s = .run x t ∧ serves ⟨regWrite d.mem a (v.setWidth 24), d.gsbs.tail⟩ t
      ∧ t.cfg = s.cfg ∧ t.faulted = s.faulted := by
  have hq : deviceAnswer (wire 0 a (v.setWidth 24)) s = answerReg d (regRead d.mem a) := by
    rw [deviceAnswer_serves h, refReply_write]
  have hs := serves_replied4 h (wire 0 a (v.setWidth 24)) (nextGsb d) ((regRead d.mem a).extractLsb' 16 8)
    ((regRead d.mem a).extractLsb' 8 8) ((regRead d.mem a).extractLsb' 0 8)
  rw [refAfter, refReply_write] at hs
  exact ⟨_, _, xfer_write_replied h.1 hq, hs, rfl, rfl⟩

/-- READ_AND_CLEAR with the reference device (R51, R78). -/
theorem xfer_rac_reference {d : RefDevice} {s : State} (h : serves d s) (a : Addr) (v : U32) :
    ∃ t, xfer .readAndClear a v s = .run ((regRead d.mem a).setWidth 32) t
      ∧ serves ⟨regWrite d.mem a (regRead d.mem a &&& ~~~(v.setWidth 24)), d.gsbs.tail⟩ t
      ∧ t.cfg = s.cfg ∧ t.faulted = s.faulted := by
  have hq : deviceAnswer (wire 2 a (v.setWidth 24)) s = answerReg d (regRead d.mem a) := by
    rw [deviceAnswer_serves h, refReply_readAndClear]
  have hx := xfer_rac_replied h.1 hq
  have hs := serves_replied4 h (wire 2 a (v.setWidth 24)) (nextGsb d) ((regRead d.mem a).extractLsb' 16 8)
    ((regRead d.mem a).extractLsb' 8 8) ((regRead d.mem a).extractLsb' 0 8)
  rw [payload_of_reg] at hx
  rw [refAfter, refReply_readAndClear] at hs
  exact ⟨_, hx, hs, rfl, rfl⟩

end Sys2Proof.Machine
end

