-- ==== Sys2Proof/Laws/Decoding.lean ====
section
/-! SUPPORT. What the decoder reads from a request as the block builds it (R52, R56, R67). -/

namespace Sys2Proof.Machine

theorem decode_write (shape : Shape) (a : Addr) (p : U24) : decode shape (.request (wire 0 a p)) = .ok (.fWrite a p) := by
  simp only [decode, decodeRequest, wire, decodeRequest4, opOf_write, header_addr, payload_of_bytes]

theorem decode_read (shape : Shape) (a : Addr) : decode shape (.request (wire 1 a 0)) = .ok (.fRead a 0) := by
  simp only [decode, decodeRequest, wire, decodeRequest4, opOf_read, header_addr]
  rfl

theorem decode_readAndClear (shape : Shape) (a : Addr) (p : U24) :
    decode shape (.request (wire 2 a p)) = .ok (.fReadAndClear a p) := by
  simp only [decode, decodeRequest, wire, decodeRequest4, opOf_readAndClear, header_addr, payload_of_bytes]

theorem decode_rom4 (a : Addr) : decode .four (.request (wire 3 a 0)) = .ok (.fDeviceInfo a 0) := by
  simp only [decode, decodeRequest, wire, decodeRequest4, opOf_deviceInfo, header_addr]
  rfl

theorem decode_rom2 (a : Addr) : decode .two (.request (wireRom2 a)) = .ok (.fDeviceInfo2 a 0) := by
  have ho : opOf (3#2 ++ a) = .deviceInfo := opOf_deviceInfo a
  have ha : (3#2 ++ a).setWidth 6 = a := header_addr 3 a
  simp only [decode, decodeRequest, wireRom2, decodeRequest2, ho, ha]
  rfl

end Sys2Proof.Machine
end

