-- ==== Sys2Proof/Laws/PerInstr.lean ====
section
/-! SUPPORT. Statements for every instruction, as syntax, one lemma for each constructor. -/

namespace Sys2Proof.Laws

/-- Where an instruction is presented, and how wide: a command at the command port with a code of five bits (R60, R61), a frame form
at the exchange port with 4 or 2 bytes (R52, R53, R56, R57, R58). -/
def PortShape.Statement (i : Instr) : Prop :=
  match encode i with
  | .command code _ => Machine.isFrame i = false ∧ code.toNat < 32
  | .request bytes => Machine.isFrame i = true ∧ (bytes.length = 4 ∨ bytes.length = 2)
  | .response bytes => Machine.isFrame i = true ∧ (bytes.length = 4 ∨ bytes.length = 2)

theorem PortShape.write (reg : Addr) (data : U32) : PortShape.Statement (.write reg data) :=
  ⟨rfl, by decide⟩

theorem PortShape.read (reg : Addr) : PortShape.Statement (.read reg) :=
  ⟨rfl, by decide⟩

theorem PortShape.modify (reg : Addr) (mask : U32) (data : U32) : PortShape.Statement (.modify reg mask data) :=
  ⟨rfl, by decide⟩

theorem PortShape.rac (reg : Addr) (mask : U32) : PortShape.Statement (.rac reg mask) :=
  ⟨rfl, by decide⟩

theorem PortShape.racList (list : List (Addr × U32)) : PortShape.Statement (.racList list) :=
  ⟨rfl, by decide⟩

theorem PortShape.readRom (addr : Addr) : PortShape.Statement (.readRom addr) :=
  ⟨rfl, by decide⟩

theorem PortShape.isWritable (reg : Addr) : PortShape.Statement (.isWritable reg) :=
  ⟨rfl, by decide⟩

theorem PortShape.getGsb : PortShape.Statement .getGsb :=
  ⟨rfl, by decide⟩

theorem PortShape.wdCheck : PortShape.Statement .wdCheck :=
  ⟨rfl, by decide⟩

theorem PortShape.wdRefresh : PortShape.Statement .wdRefresh :=
  ⟨rfl, by decide⟩

theorem PortShape.wdSetInterval (arg : U32) : PortShape.Statement (.wdSetInterval arg) :=
  ⟨rfl, by decide⟩

theorem PortShape.wdEnable : PortShape.Statement .wdEnable :=
  ⟨rfl, by decide⟩

theorem PortShape.wdDisable : PortShape.Statement .wdDisable :=
  ⟨rfl, by decide⟩

theorem PortShape.modeSet (arg : U32) : PortShape.Statement (.modeSet arg) :=
  ⟨rfl, by decide⟩

theorem PortShape.maintain (arg : U32) : PortShape.Statement (.maintain arg) :=
  ⟨rfl, by decide⟩

theorem PortShape.readAvg (reg : Addr) (mask : U32) (arg : U32) : PortShape.Statement (.readAvg reg mask arg) :=
  ⟨rfl, by decide⟩

theorem PortShape.reserved (code : BitVec 5) : PortShape.Statement (.reserved code) :=
  ⟨rfl, by rw [BitVec.toNat_setWidth]; omega⟩

theorem PortShape.fWrite (addr : Addr) (payload : U24) : PortShape.Statement (.fWrite addr payload) :=
  ⟨rfl, .inl rfl⟩

theorem PortShape.fRead (addr : Addr) (payload : U24) : PortShape.Statement (.fRead addr payload) :=
  ⟨rfl, .inl rfl⟩

theorem PortShape.fReadAndClear (addr : Addr) (payload : U24) : PortShape.Statement (.fReadAndClear addr payload) :=
  ⟨rfl, .inl rfl⟩

theorem PortShape.fDeviceInfo (addr : Addr) (payload : U24) : PortShape.Statement (.fDeviceInfo addr payload) :=
  ⟨rfl, .inl rfl⟩

theorem PortShape.fDeviceInfo2 (addr : Addr) (dummy : Byte) : PortShape.Statement (.fDeviceInfo2 addr dummy) :=
  ⟨rfl, .inr rfl⟩

theorem PortShape.fResponse4 (gsb : Byte) (data : U24) : PortShape.Statement (.fResponse4 gsb data) :=
  ⟨rfl, .inl rfl⟩

theorem PortShape.fResponse2 (gsb : Byte) (data : Byte) : PortShape.Statement (.fResponse2 gsb data) :=
  ⟨rfl, .inr rfl⟩

end Sys2Proof.Laws
end

