-- ==== Sys2Proof/Machine/Listing.lean ====
section
/-! DEFINITION. The spec's own notation for commands and frames in listings (R64): text only, nothing of the machine depends
on it. DESIGN CHOICE: the counts of digits (log 20). -/

namespace Sys2Proof.Machine

/-- A hexadecimal digit. -/
def hexDigit (n : Nat) : Char :=
  if n < 10 then Char.ofNat (48 + n) else Char.ofNat (55 + n)

/-- The low `width` hexadecimal digits of a number. -/
def hexDigits : Nat → Nat → String
  | 0, _ => ""
  | width + 1, n => hexDigits width (n / 16) ++ String.singleton (hexDigit (n % 16))

/-- A number in C notation with a given count of digits (R64). -/
def hexText (width n : Nat) : String :=
  "0x" ++ hexDigits width n

/-- An address in a listing. -/
def addrText (a : Addr) : String :=
  hexText 2 a.toNat

/-- A mask, value or argument in a listing. -/
def wordText (v : U32) : String :=
  hexText 8 v.toNat

/-- The entries of a RAC_LIST, `reg:mask` separated by commas. -/
def entriesText : List (Addr × U32) → String
  | [] => ""
  | [(reg, mask)] => addrText reg ++ ":" ++ wordText mask
  | (reg, mask) :: rest => addrText reg ++ ":" ++ wordText mask ++ ", " ++ entriesText rest

/-- A list operand: its entries between braces (the characters 123 and 125). -/
def listText (list : List (Addr × U32)) : String :=
  String.singleton (Char.ofNat 123) ++ entriesText list ++ String.singleton (Char.ofNat 125)

/-- A frame word in a listing, `tx=0x4A000000` or `tx=0xC500`. -/
def frameText (label : String) (bytes : List Byte) : String :=
  label ++ "=" ++ hexText (2 * bytes.length) (frameWord bytes)

/-- A 4-byte request frame with its bits as given (R52, R72). -/
def frame4 (op : Op) (addr : Addr) (payload : U24) : List Byte :=
  buildFrame4 op (addr.setWidth 32) (payload.setWidth 32)

/-- An instruction as a listing writes it; the spec gives a reserved code no notation. -/
def listing : Instr → Option String
  | .write reg data => some ("WRITE " ++ addrText reg ++ ", " ++ wordText data)
  | .read reg => some ("READ " ++ addrText reg)
  | .modify reg mask data => some ("MODIFY " ++ addrText reg ++ ", " ++ wordText mask ++ ", " ++ wordText data)
  | .rac reg mask => some ("RAC " ++ addrText reg ++ ", " ++ wordText mask)
  | .racList list => some ("RAC_LIST " ++ listText list)
  | .readRom addr => some ("READ_ROM " ++ addrText addr)
  | .isWritable reg => some ("IS_WRITABLE " ++ addrText reg)
  | .getGsb => some "GET_GSB"
  | .wdCheck => some "WD_CHECK"
  | .wdRefresh => some "WD_REFRESH"
  | .wdSetInterval arg => some ("WD_SET_INTERVAL " ++ wordText arg)
  | .wdEnable => some "WD_ENABLE"
  | .wdDisable => some "WD_DISABLE"
  | .modeSet arg => some ("MODE_SET " ++ wordText arg)
  | .maintain arg => some ("MAINTAIN " ++ wordText arg)
  | .readAvg reg mask arg => some ("READ_AVG " ++ addrText reg ++ ", " ++ wordText mask ++ ", " ++ wordText arg)
  | .reserved _ => none
  | .fWrite addr payload => some (frameText "tx" (frame4 .write addr payload))
  | .fRead addr payload => some (frameText "tx" (frame4 .read addr payload))
  | .fReadAndClear addr payload => some (frameText "tx" (frame4 .readAndClear addr payload))
  | .fDeviceInfo addr payload => some (frameText "tx" (frame4 .deviceInfo addr payload))
  | .fDeviceInfo2 addr dummy => some (frameText "tx" [encodeHeader .deviceInfo (addr.setWidth 32), dummy])
  | .fResponse4 gsb data =>
    some (frameText "rx" [gsb, data.extractLsb' 16 8, data.extractLsb' 8 8, data.extractLsb' 0 8])
  | .fResponse2 gsb data => some (frameText "rx" [gsb, data])

end Sys2Proof.Machine
end

