-- ==== Sys2Proof/Tests/Slice0.lean ====
section
/-! SUPPORT. Small tests against spec/95_test_vectors.md, a word for every constructor written out from its encoding, an ill-formed term for
every check, and for every obligation with hypotheses a witness that meets them. -/

namespace Sys2Proof.Tests

open Sys2Proof.Machine

/-! ### Test states -/

/-- Right after reset with configuration `c`, at clock 0, with the device's answers and the clock samples scripted. -/
def scripted (c : Cfg) (answers : List Answer) (samples : List U64) : State :=
  State.afterReset c 0x00 default 0 { Env.quiet 0 with answers := answers, samples := samples }

/-- Right after reset with EX, with the reference device holding some registers, and the clock samples scripted. -/
def fixture (regs : List (Addr × U24)) (samples : List U64) : State :=
  State.afterReset exampleCfg 0x00 default 0
    { Env.quiet 0 with
      device := .reference ⟨regs.foldl (fun m r => regWrite m r.1 r.2) [], List.replicate 12 0x0C⟩
      samples := samples }

/-- The state an instruction leaves. -/
def after (i : Instr) (s : State) : State :=
  match exec i s with
  | .next t => t
  | _ => s

/-- The requests a state's history holds. -/
def sent (s : State) : List (List Byte) :=
  s.env.trace.filterMap fun e => match e with
    | .frame _ tx _ => some tx
    | _ => none

/-- A register of the reference device. -/
def deviceReg (s : State) (a : Addr) : U24 :=
  match s.env.device with
  | .reference d => regRead d.mem a
  | .oracle => 0

/-- EX with the ROM byte in rx[1], and EX with the 2-byte ROM shape (section 2.7). -/
def exByte1 : Cfg := { exampleCfg with romDataByte4 := .one }

def exTwo : Cfg := { exampleCfg with romShape := .two }

/-- One plain answer. -/
def plain : Answer := .ok 0x0C 0x00 0x00 0x40

/-! ### Well-formedness: one ill-formed term for each check -/

theorem test_wellFormed_refuses_unreserved_code : (Instr.reserved 0x0F).wellFormed = false := by decide

theorem test_wellFormed_refuses_read_payload : (Instr.fRead 0x01 0x000001).wellFormed = false := by decide

theorem test_wellFormed_refuses_rom_payload : (Instr.fDeviceInfo 0x01 0x800000).wellFormed = false := by decide

theorem test_wellFormed_refuses_rom_dummy : (Instr.fDeviceInfo2 0x01 0x01).wellFormed = false := by decide

theorem test_wellFormed_admits_them_repaired :
    (Instr.reserved 0x10).wellFormed = true ∧ (Instr.fRead 0x01 0).wellFormed = true
      ∧ (Instr.fDeviceInfo 0x01 0).wellFormed = true ∧ (Instr.fDeviceInfo2 0x01 0).wellFormed = true := by decide

/-! ### Decoding: command codes from R60, frame words from R52–R57 -/

theorem test_decode_write :
    decode .four (.command 0b00000 { reg := 0x05, data := 0x00ABCDEF }) = .ok (.write 0x05 0x00ABCDEF) := by decide

theorem test_decode_read : decode .four (.command 0b00001 { reg := 0x33 }) = .ok (.read 0x33) := by decide

theorem test_decode_modify :
    decode .four (.command 0b00010 { reg := 0x05, mask := 0xFF, data := 0x12 }) = .ok (.modify 0x05 0xFF 0x12) := by decide

theorem test_decode_rac : decode .four (.command 0b00011 { reg := 0x31, mask := 3 }) = .ok (.rac 0x31 3) := by decide

theorem test_decode_racList :
    decode .four (.command 0b00100 { list := [(0x31, 0x0F), (0x35, 1)] }) = .ok (.racList [(0x31, 0x0F), (0x35, 1)]) := by decide

theorem test_decode_readRom : decode .four (.command 0b00101 { reg := 0x3F }) = .ok (.readRom 0x3F) := by decide

theorem test_decode_isWritable : decode .four (.command 0b00110 { reg := 0x3F }) = .ok (.isWritable 0x3F) := by decide

theorem test_decode_getGsb : decode .four (.command 0b00111 {}) = .ok .getGsb := by decide

theorem test_decode_wdCheck : decode .four (.command 0b01000 {}) = .ok .wdCheck := by decide

theorem test_decode_wdRefresh : decode .four (.command 0b01001 {}) = .ok .wdRefresh := by decide

theorem test_decode_wdSetInterval : decode .four (.command 0b01010 { arg := 2 }) = .ok (.wdSetInterval 2) := by decide

theorem test_decode_wdEnable : decode .four (.command 0b01011 {}) = .ok .wdEnable := by decide

theorem test_decode_wdDisable : decode .four (.command 0b01100 {}) = .ok .wdDisable := by decide

theorem test_decode_modeSet : decode .four (.command 0b01101 { arg := 1 }) = .ok (.modeSet 1) := by decide

theorem test_decode_maintain : decode .four (.command 0b01110 { arg := 7 }) = .ok (.maintain 7) := by decide

theorem test_decode_readAvg :
    decode .four (.command 0b01111 { reg := 0x33, mask := 0x3F0, arg := 4 }) = .ok (.readAvg 0x33 0x3F0 4) := by decide

theorem test_decode_reserved :
    decode .four (.command 0b10000 {}) = .ok (.reserved 0x10) ∧ decode .four (.command 0b11111 {}) = .ok (.reserved 0x1F) := by decide

theorem test_decode_fWrite :
    decode .four (.request [0b00000101, 0b10101011, 0b11001101, 0b11101111]) = .ok (.fWrite 0x05 0xABCDEF) := by decide

theorem test_decode_fRead : decode .four (.request [0b01110011, 0, 0, 0]) = .ok (.fRead 0x33 0) := by decide

theorem test_decode_fReadAndClear :
    decode .four (.request [0b10111100, 0xFF, 0xFF, 0xFF]) = .ok (.fReadAndClear 0x3C 0xFFFFFF) := by decide

theorem test_decode_fDeviceInfo : decode .four (.request [0b11111111, 0, 0, 0]) = .ok (.fDeviceInfo 0x3F 0) := by decide

theorem test_decode_fDeviceInfo2 : decode .two (.request [0b11000000, 0]) = .ok (.fDeviceInfo2 0x00 0) := by decide

theorem test_decode_fResponse4 : decode .four (.response [0xA5, 0, 0, 1]) = .ok (.fResponse4 0xA5 0x000001) := by decide

theorem test_decode_fResponse2 : decode .two (.response [0x0C, 0x30]) = .ok (.fResponse2 0x0C 0x30) := by decide

/-- R55–R58, R67: a ROM frame of the other shape's length, and dummy bits that are not zero, are no frames of the block. -/
theorem test_decode_refuses :
    decode .two (.request [0xC0, 0, 0, 0]) = .error (.romLength 4) ∧ decode .four (.request [0xC0, 0]) = .error (.romLength 2)
      ∧ decode .four (.response [0x0C, 0x30]) = .error (.romLength 2)
      ∧ decode .four (.request [0x7F, 0, 0, 1]) = .error (.nonzeroDummy 0x7F)
      ∧ decode .two (.request [0xC0, 0xFF]) = .error (.nonzeroDummy 0xC0) := by decide

/-- The opcode table's numbering: the frame word of section 2.1, and a bare command code. -/
theorem test_decodeTableWord :
    decodeTableWord 32 0x05ABCDEF = some (.fWrite 0x05 0xABCDEF) ∧ decodeTableWord 16 0xFF00 = some (.fDeviceInfo2 0x3F 0)
      ∧ decodeTableWord 8 0x0E = some (.maintain 0) := by decide

/-! ### Codec vectors (section 2.1) -/

theorem test_codec_headers :
    encodeHeader .readAndClear 0x31 = 0xB1 ∧ encodeHeader .deviceInfo 0x16 = 0xD6 ∧ encodeHeader .read 0x40 = 0x40
      ∧ encodeHeader .write 0x7F = 0x3F := by decide

theorem test_codec_payloads :
    packPayload 0xFF123456 = (0x12, 0x34, 0x56) ∧ unpackPayload (0x80, 0x00, 0x01) = 0x00800001 := by decide

/-- R37's example: 0x45000000 goes out as 01000101 and then zeros. -/
theorem test_codec_wire :
    wireBits [0x45, 0, 0, 0]
      = [false, true, false, false, false, true, false, true] ++ List.replicate 24 false := by decide

/-! ### Register access -/

/-- Section 2.2: exactly 23 of the 64 addresses are writable. -/
theorem test_isWritable_count :
    ((List.range 64).filter fun n => (after (.isWritable (BitVec.ofNat 6 n)) (scripted exampleCfg [] [])).res.flag).length = 23 := by
  decide

/-- Section 2.3, first row. -/
theorem test_write :
    (after (.write 0x04 0x00123456) (fixture [(0x04, 0x000777)] [])).res = ⟨.ok, 0, false⟩
      ∧ deviceReg (after (.write 0x04 0x00123456) (fixture [(0x04, 0x000777)] [])) 0x04 = 0x123456 := by decide

/-- Program P1, step 6. -/
theorem test_write_not_writable :
    (after (.write 0x31 0) (fixture [] [])).res = ⟨.notWritable, 0x31, false⟩ ∧ sent (after (.write 0x31 0) (fixture [] [])) = [] := by
  decide

/-- R80's example. -/
theorem test_read :
    (after (.read 0x33) (fixture [(0x33, 0x0003FF)] [])).res = ⟨.ok, 0x3FF, false⟩
      ∧ (after (.read 0x33) (fixture [(0x33, 0x0003FF)] [])).gsb = 0x0C := by decide

/-- Program P1, step 3. -/
theorem test_modify :
    sent (after (.modify 0x05 0x0F0F 0x0A0A) (fixture [(0x05, 0x00F0F0)] [])) = [[0x45, 0, 0, 0], [0x05, 0x00, 0xFA, 0xFA]] := by
  decide

/-- Section 2.10: frame 2 fails. -/
theorem test_modify_fails :
    (after (.modify 0x05 0xFF 0x42) (scripted exampleCfg [.ok 0x0C 0x00 0x01 0x00, .fail] [])).res
        = ⟨.transportFault, 0x05, false⟩
      ∧ sent (after (.modify 0x05 0xFF 0x42) (scripted exampleCfg [.ok 0x0C 0x00 0x01 0x00, .fail] []))
        = [[0x45, 0, 0, 0], [0x05, 0x00, 0x01, 0x42]] := by decide

/-- R82's example. -/
theorem test_rac :
    (after (.rac 0x31 3) (fixture [(0x31, 0x00000F)] [])).res = ⟨.ok, 0x0F, false⟩
      ∧ deviceReg (after (.rac 0x31 3) (fixture [(0x31, 0x00000F)] [])) 0x31 = 0x00000C := by decide

/-- Section 2.6: two entries for one register stay two frames. -/
theorem test_racList :
    sent (after (.racList [(0x31, 1), (0x31, 2)]) (fixture [(0x31, 3)] [])) = [[0xB1, 0, 0, 1], [0xB1, 0, 0, 2]]
      ∧ deviceReg (after (.racList [(0x31, 1), (0x31, 2)]) (fixture [(0x31, 3)] [])) 0x31 = 0 := by decide

/-- Section 2.10: a failing entry ends the list. -/
theorem test_racList_fails :
    sent (after (.racList [(0x31, 1), (0x32, 1), (0x33, 1)]) (scripted exampleCfg [plain, .fail] []))
      = [[0xB1, 0, 0, 1], [0xB2, 0, 0, 1]] := by decide

/-- Section 2.7: the FOUR shape with the data in rx[3] and in rx[1]. -/
theorem test_readRom_four :
    (after (.readRom 0x00) (scripted exampleCfg [.ok 0x0C 0x12 0x34 0xA5] [])).res = ⟨.ok, 0xA5, false⟩
      ∧ (after (.readRom 0x00) (scripted exByte1 [.ok 0x0C 0x12 0x34 0xA5] [])).res = ⟨.ok, 0x12, false⟩ := by decide

/-- Section 2.7: the TWO shape. -/
theorem test_readRom_two :
    (after (.readRom 0x3F) (scripted exTwo [.ok 0x0C 0xA5 0 0] [])).res = ⟨.ok, 0xA5, false⟩
      ∧ sent (after (.readRom 0x3F) (scripted exTwo [.ok 0x0C 0xA5 0 0] [])) = [[0xFF, 0x00]] := by decide

/-- Section 2.8. -/
theorem test_getGsb :
    (after .getGsb (scripted exampleCfg [] [])).res = ⟨.ok, 0, false⟩
      ∧ (after .getGsb (after (.read 0x01) (scripted exampleCfg [.ok 0x5A 0 0 0] []))).res = ⟨.ok, 0x5A, true⟩ := by decide

/-- Section 2.10: a reserved code in a FAULTED block. -/
theorem test_reserved :
    (after (.reserved 0x1F) { scripted exampleCfg [] [] with faulted := true }).res = ⟨.invalidSelector, 0x1F, false⟩ := by decide

/-! ### Watchdog (section 2.9) -/

/-- Rows 1 and 2: one millisecond before expiry, and at expiry. -/
theorem test_wdCheck :
    (after .wdCheck { fixture [(0x02, 0x40)] [1049] with wdLast := 1000 }).res = ⟨.ok, 0, false⟩
      ∧ sent (after .wdCheck { fixture [(0x02, 0x40)] [1050] with wdLast := 1000 }) = [[0x42, 0, 0, 0], [0x02, 0, 0, 0x41]]
      ∧ (after .wdCheck { fixture [(0x02, 0x40)] [1050] with wdLast := 1000 }).wdLast = 1050 := by decide

/-- The Expired function alone: modular arithmetic (D19). -/
theorem test_expired_wraps :
    expired { scripted exampleCfg [] [] with wdLast := 0xFFFFFFFFFFFFFFF6, wdInterval := 10 } 0 = true := by decide

/-- WD_REFRESH with WD_RUN = 0. -/
theorem test_wdRefresh :
    sent (after .wdRefresh { fixture [(0x02, 0xFFFFFF)] [] with wdRun := false }) = [[0x42, 0, 0, 0], [0x02, 0xFF, 0xFF, 0xFE]] := by
  decide

/-- WD_SET_INTERVAL 3 on registers that hold other fields. -/
theorem test_wdSetInterval :
    sent (after (.wdSetInterval 3) (fixture [(0x3F, 1), (0x01, 0x18)] [2000]))
        = [[0x7F, 0, 0, 0], [0x3F, 0, 0, 1], [0x41, 0, 0, 0], [0x01, 0, 0, 0x1E]]
      ∧ (after (.wdSetInterval 3) (fixture [(0x3F, 1), (0x01, 0x18)] [2000])).wdInterval = 200
      ∧ (after (.wdSetInterval 3) (fixture [(0x3F, 1), (0x01, 0x18)] [2000])).wdLast = 2000 := by decide

/-- WD_SET_INTERVAL 4. -/
theorem test_wdSetInterval_refused :
    (after (.wdSetInterval 4) (fixture [] [2000])).res = ⟨.invalidSelector, 4, false⟩
      ∧ (after (.wdSetInterval 4) (fixture [] [2000])).wdInterval = 50 := by decide

theorem test_wdEnable : (after .wdEnable { fixture [] [] with wdRun := false }).wdRun = true := by decide

theorem test_wdDisable : (after .wdDisable (fixture [] [])).wdRun = false := by decide

/-- MODE_SET STANDBY2 keeps the selector bits and stops the controller. -/
theorem test_modeSet :
    sent (after (.modeSet 2) (fixture [(0x01, 6)] [])) = [[0x41, 0, 0, 0], [0x01, 0, 0, 0x16]]
      ∧ (after (.modeSet 2) (fixture [(0x01, 6)] [])).wdRun = false := by decide

/-- MODE_SET ACTIVE leaves WD_RUN = 0. -/
theorem test_modeSet_active :
    sent (after (.modeSet 0) { fixture [(0x01, 8)] [] with wdRun := false }) = [[0x41, 0, 0, 0], [0x01, 0, 0, 0]]
      ∧ (after (.modeSet 0) { fixture [(0x01, 8)] [] with wdRun := false }).wdRun = false := by decide

/-- MAINTAIN 3 while STOPPED, samples 5, 10, 15. -/
theorem test_maintain_stopped :
    (after (.maintain 3) { scripted exampleCfg [] [5, 10, 15] with wdRun := false, wdInterval := 10 }).wdLast = 10
      ∧ sent (after (.maintain 3) { scripted exampleCfg [] [5, 10, 15] with wdRun := false, wdInterval := 10 }) = [] := by decide

/-- Program P2, step 1: two refreshes in MAINTAIN 7. -/
theorem test_maintain_running :
    sent (after (.maintain 7) { fixture [] [0, 1, 2, 3, 4, 5, 6] with wdInterval := 3 })
        = [[0x42, 0, 0, 0], [0x02, 0, 0, 1], [0x42, 0, 0, 0], [0x02, 0, 0, 0]]
      ∧ (after (.maintain 7) { fixture [] [0, 1, 2, 3, 4, 5, 6] with wdInterval := 3 }).wdLast = 6 := by decide

/-- READ_AVG of fields 1..5. -/
theorem test_readAvg :
    (after (.readAvg 0x33 0xF0 4) (scripted exampleCfg
      [.ok 0x0C 0 0 0x10, .ok 0x0C 0 0 0x20, .ok 0x0C 0 0 0x30, .ok 0x0C 0 0 0x40, .ok 0x0C 0 0 0x5F] [0, 0, 0, 0, 0])).res
      = ⟨.ok, 3, false⟩ := by decide

/-- READ_AVG with a refresh between samples 2 and 3. -/
theorem test_readAvg_refreshes :
    (sent (after (.readAvg 0x33 0x3FF 0) { fixture [] [5, 10, 12, 14, 16] with wdInterval := 10 })).map headerByte
      = [0x73, 0x73, 0x42, 0x02, 0x73, 0x73, 0x73] := by decide

/-! ### Frames by themselves, steps -/

theorem test_fWrite :
    deviceReg (after (.fWrite 0x05 0xABCDEF) (fixture [] [])) 0x05 = 0xABCDEF
      ∧ sent (after (.fWrite 0x05 0xABCDEF) (fixture [] [])) = [[0x05, 0xAB, 0xCD, 0xEF]] := by decide

/-- R59: a WRITE frame to a status register is not emitted while ENFORCE_WRITABLE is true. -/
theorem test_fWrite_refused :
    sent (after (.fWrite 0x31 0) (fixture [] [])) = [] ∧ (after (.fWrite 0x31 0) (fixture [] [])).res = ⟨.notWritable, 0x31, false⟩ := by
  decide

theorem test_fRead : (after (.fRead 0x05 0) (fixture [(0x05, 0x00F0F0)] [])).rxData = 0x0000F0F0 := by decide

theorem test_fReadAndClear : deviceReg (after (.fReadAndClear 0x31 3) (fixture [(0x31, 0x0F)] [])) 0x31 = 0x0C := by decide

theorem test_fDeviceInfo : sent (after (.fDeviceInfo 0x3F 0) (fixture [] [])) = [[0xFF, 0, 0, 0]] := by decide

theorem test_fDeviceInfo2 : (after (.fDeviceInfo2 0x00 0) (scripted exTwo [.ok 0x0C 0x30 0 0] [])).rxData = 0x30 := by decide

theorem test_fResponse4 :
    (after (.fResponse4 0xA5 1) (fixture [] [])).gsb = 0xA5 ∧ (after (.fResponse4 0xA5 1) (fixture [] [])).rxData = 1 := by decide

theorem test_fResponse2 :
    (after (.fResponse2 0x00 0xFF) (fixture [] [])).gsbValid = true ∧ (after (.fResponse2 0x00 0xFF) (fixture [] [])).rxData = 0xFF := by
  decide

/-- The first step after reset runs a placed word. -/
theorem test_step_from_reset :
    step (State.reset.withFetchWord 8 0x07) = exec .getGsb (accept (.command 0x07 {}) (State.reset.setBusy false)) := rfl

/-- And a placed ROM frame of either length, whatever the board's ROM shape. -/
theorem test_step_from_reset_rom :
    step (State.reset.withFetchWord 16 0xFF00) = exec (.fDeviceInfo2 0x3F 0) ((State.reset.withFetchWord 16 0xFF00).taken [])
      ∧ step (State.reset.withFetchWord 32 0xFF000000)
        = exec (.fDeviceInfo 0x3F 0) ((State.reset.withFetchWord 32 0xFF000000).taken []) :=
  ⟨rfl, rfl⟩

/-- EX passes every check of R122. -/
theorem test_exampleCfg_ok : cfgOk exampleCfg = true := by decide

/-- R21: "bits 31:24 zero" holds for the mask of the variant that is not selected too. -/
theorem test_cfgOk_widths :
    cfgOk { exampleCfg with wdTrigMask1 := 0xFF000000 } = false ∧ cfgOk { exampleCfg with wdTrigMask1 := 0x00FFFFFF } = true := by
  decide

/-- R105: the status codes. -/
theorem test_statusCode :
    [Status.ok, .notWritable, .invalidSelector, .transportFault, .faulted].map statusCode = [0, 1, 2, 3, 4] := by decide

/-- R65: SET_FIELD 8, 0x3FF, 0, 255 is MODIFY 8, 0x3FF, 255 (section 1.11); TOGGLE_WD is WD_REFRESH. -/
theorem test_pseudo : expand (.setField 0x08 0x3FF 0 255) = .modify 0x08 0x3FF 255 ∧ expand .toggleWd = .wdRefresh := by decide

/-- R64: a command and a frame word as listings write them. -/
theorem test_listing : listing (.read 0x05) = some "READ 0x05" ∧ frameText "rx" [0x0C, 0x21] = "rx=0x0C21" := by decide

/-! ### Witnesses: for each obligation with hypotheses, values that meet all of them -/

/-- Ready, with answers scripted, under EX. -/
def answering (answers : List Answer) : State :=
  scripted exampleCfg answers []

/-- Five answers whose payload bytes are 10, 11, 12, 13 and 14, for READ_AVG. -/
def averageBytes : List (Byte × Byte × Byte × Byte) :=
  [(0x0C, 0, 0, 10), (0x0C, 0, 0, 11), (0x0C, 0, 0, 12), (0x0C, 0, 0, 13), (0x0C, 0, 0, 14)]

/-- The reference device with register 0x05 holding 0x00F0F0. -/
def device5 : RefDevice :=
  ⟨regWrite [] 0x05 0x00F0F0, List.replicate 12 0x0C⟩

/-- `DecodeOfEncodeIsTheInstruction`, at the edge of each check, and each form that only one shape has. -/
theorem witness_decodeOfEncode :
    (Instr.fDeviceInfo 0x00 0).fits .four = true ∧ (Instr.fDeviceInfo2 0x3F 0).fits .two = true
      ∧ (Instr.fResponse2 0 0).fits .two = true ∧ (Instr.reserved 0x10).fits .two = true ∧ (Instr.reserved 0x10).wellFormed = true ∧ (Instr.reserved 0x1F).wellFormed = true ∧ (Instr.fRead 0x3F 0).wellFormed = true
      ∧ (Instr.fDeviceInfo 0x00 0).wellFormed = true ∧ (Instr.fDeviceInfo2 0x3F 0).wellFormed = true
      ∧ (Instr.fWrite 0x3F 0xFFFFFF).wellFormed = true ∧ (Instr.maintain 0xFFFFFFFF).wellFormed = true := by decide

/-- `EncodeOfDecodedFrameIsTheFrame` and `DecodedInstructionsAreWellFormed`: requests and responses of both lengths, and a command. -/
theorem witness_encodeOfDecoded :
    decode .four (.request [0x7F, 0, 0, 0]) = .ok (.fRead 0x3F 0) ∧ decode .two (.request [0xC0, 0]) = .ok (.fDeviceInfo2 0 0)
      ∧ decode .two (.response [0, 0xFF, 0, 0]) = .ok (.fResponse4 0 0xFF0000)
      ∧ decode .two (.response [1, 2]) = .ok (.fResponse2 1 2) ∧ decode .four (.command 0x1F {}) = .ok (.reserved 0x1F) := by decide

/-- `ReservedCodeAnswersInvalidSelector` and `OtherEncodingsAreRefused`, each clause at its edge. -/
theorem witness_otherEncodings :
    16 ≤ (0x10 : BitVec 5).toNat ∧ 32 ≤ (0x20 : Byte).toNat ∧ 32 ≤ (0xFF : Byte).toNat
      ∧ (([] : List Byte).length ≠ 4 ∧ ([] : List Byte).length ≠ 2)
      ∧ (([0, 0, 0] : List Byte).length ≠ 4 ∧ ([0, 0, 0] : List Byte).length ≠ 2)
      ∧ (0xBF : Byte).extractLsb' 6 2 ≠ 3 ∧ (0x00 : Byte).extractLsb' 6 2 ≠ 3 ∧ (0xC0 : Byte).extractLsb' 6 2 = 3
      ∧ ((0x00 : Byte) ++ (0x00 : Byte) ++ (0x01 : Byte) ≠ (0 : U24) ∧ (0x7F : Byte).extractLsb' 6 2 = 1) ∧ (0x01 : Byte) ≠ 0 := by
  decide

/-- `CodecLawsHold`, each clause at its edge. -/
theorem witness_codecLaws :
    (0x00FFFFFF : U32).toNat < 2 ^ 24 ∧ (0x3F : U32).toNat < 64 ∧ encodeHeader .read 0x3F = encodeHeader .read 0x3F := by decide

/-- `RequestFramesHaveTheirLayout`: both lengths occur. -/
theorem witness_requestFrames : exchangeLength .four .deviceInfo = 4 ∧ exchangeLength .two .deviceInfo = 2 := by decide

/-- `GetGsbAnswersTheCachedByte`: before and after the first answer. -/
theorem witness_getGsb : (answering []).gsbValid = false ∧ (after (.read 0x01) (answering [plain])).gsbValid = true := by decide

/-- `WriteSendsItsFrame`, at the last writable address. -/
theorem witness_write :
    ready (answering [plain]) ∧ ((answering [plain]).cfg.enforceWritable = true → writable 0x3F = true)
      ∧ deviceAnswer (wire 0 0x3F ((0xFFABCDEF : U32).setWidth 24)) (answering [plain]) = .ok 0x0C 0x00 0x00 0x40 :=
  ⟨⟨rfl, rfl⟩, fun _ => rfl, rfl⟩

/-- `WriteSendsItsFrame` with CFG.ENFORCE_WRITABLE false, at a status address. -/
theorem witness_write_unenforced :
    (scripted { exampleCfg with enforceWritable := false } [plain] []).cfg.enforceWritable = true → writable 0x31 = true := by
  decide

/-- `ReadReturnsThePayload`. -/
theorem witness_read :
    ready (answering [plain]) ∧ deviceAnswer (wire 1 0x00 0) (answering [plain]) = .ok 0x0C 0x00 0x00 0x40 :=
  ⟨⟨rfl, rfl⟩, rfl⟩

/-- `ModifyReadsMergesAndWrites`. -/
theorem witness_modify :
    ready (answering [plain, plain]) ∧ ((answering [plain, plain]).cfg.enforceWritable = true → writable 0x01 = true)
      ∧ rewriteAnswered 0x01 (merged 0xFF 0x12 (payload 0x00 0x00 0x40)) 0x0C 0x00 0x00 0x40 0x0C 0x00 0x00 0x40
          (answering [plain, plain]) :=
  ⟨⟨rfl, rfl⟩, fun _ => rfl, rfl, rfl⟩

/-- `ModifyStopsAtItsFailedFrame`: each frame fails. -/
theorem witness_modify_fails :
    (ready (answering [.fail]) ∧ deviceAnswer (wire 1 0x16 0) (answering [.fail]) = .fail ∧ writable 0x16 = true)
      ∧ ready (answering [plain, .fail])
      ∧ deviceAnswer (wire 1 0x16 0) (answering [plain, .fail]) = .ok 0x0C 0x00 0x00 0x40
      ∧ deviceAnswer (wire 0 0x16 ((merged 0xFF 0x42 (payload 0x00 0x00 0x40)).setWidth 24))
          (replied4 (wire 1 0x16 0) 0x0C 0x00 0x00 0x40 (answering [plain, .fail])) = .fail :=
  ⟨⟨⟨rfl, rfl⟩, rfl, rfl⟩, ⟨rfl, rfl⟩, rfl, rfl⟩

/-- `RacSendsTheMaskAndReturnsThePayload`. -/
theorem witness_rac :
    ready (answering [plain])
      ∧ deviceAnswer (wire 2 0x3C ((0xFFFFFFFF : U32).setWidth 24)) (answering [plain]) = .ok 0x0C 0x00 0x00 0x40 :=
  ⟨⟨rfl, rfl⟩, rfl⟩

/-- `RacListSendsOneFramePerEntry`: the empty list and a list of two. -/
theorem witness_racList :
    ready (answering [plain, plain]) ∧ racReplied [] (answering []) = some (answering [])
      ∧ (racReplied [(0x31, 0x0F), (0x35, 1)] (answering [plain, plain])).isSome = true :=
  ⟨⟨rfl, rfl⟩, rfl, rfl⟩

/-- `ReadRomReturnsTheConfiguredByte`: each shape and byte. -/
theorem witness_readRom :
    (ready (scripted exTwo [plain] []) ∧ (scripted exTwo [plain] []).cfg.romShape = .two
        ∧ deviceAnswer (wireRom2 0x3F) (scripted exTwo [plain] []) = .ok 0x0C 0x00 0x00 0x40)
      ∧ (ready (answering [plain]) ∧ (answering [plain]).cfg.romShape = .four ∧ (answering [plain]).cfg.romDataByte4 = .three
        ∧ deviceAnswer (wire 3 0x00 0) (answering [plain]) = .ok 0x0C 0x00 0x00 0x40)
      ∧ (ready (scripted exByte1 [plain] []) ∧ (scripted exByte1 [plain] []).cfg.romDataByte4 = .one
        ∧ (scripted exByte1 [plain] []).cfg.romShape = .four
        ∧ deviceAnswer (wire 3 0x00 0) (scripted exByte1 [plain] []) = .ok 0x0C 0x00 0x00 0x40) :=
  ⟨⟨⟨rfl, rfl⟩, rfl, rfl⟩, ⟨⟨rfl, rfl⟩, rfl, rfl, rfl⟩, ⟨rfl, rfl⟩, rfl, rfl, rfl⟩

/-- `WdCheckRefreshesWhenExpiredAndRunning`: the last sample before expiry, and expiry itself STOPPED and RUNNING. -/
theorem witness_wdCheck :
    (ready (scripted exampleCfg [] [49])
        ∧ (clockSample (scripted exampleCfg [] [49]) - (scripted exampleCfg [] [49]).wdLast).toNat
          < (scripted exampleCfg [] [49]).wdInterval.toNat)
      ∧ (ready { scripted exampleCfg [] [50] with wdRun := false }
        ∧ (scripted exampleCfg [] [50]).wdInterval.toNat
          ≤ (clockSample { scripted exampleCfg [] [50] with wdRun := false } - (scripted exampleCfg [] [50]).wdLast).toNat)
      ∧ ready (scripted exampleCfg [plain, plain] [50])
      ∧ ((scripted exampleCfg [plain, plain] [50]).wdInterval.toNat
          ≤ (clockSample (scripted exampleCfg [plain, plain] [50]) - (scripted exampleCfg [plain, plain] [50]).wdLast).toNat)
      ∧ (scripted exampleCfg [plain, plain] [50]).wdRun = true
      ∧ ((scripted exampleCfg [plain, plain] [50]).cfg.enforceWritable = true → writable (trigReg exampleCfg) = true)
      ∧ rewriteAnswered (trigReg exampleCfg) (payload 0x00 0x00 0x40 ^^^ trigMask exampleCfg) 0x0C 0x00 0x00 0x40 0x0C 0x00 0x00 0x40
          { checkSampled (scripted exampleCfg [plain, plain] [50]) with
            wdLast := clockSample (scripted exampleCfg [plain, plain] [50]) } :=
  ⟨⟨⟨rfl, rfl⟩, by decide⟩, ⟨⟨rfl, rfl⟩, by decide⟩, ⟨rfl, rfl⟩, by decide, rfl, fun _ => rfl, rfl, rfl⟩

/-- `WdRefreshTogglesTheTriggerBit`, STOPPED. -/
theorem witness_wdRefresh :
    ready { answering [plain, plain] with wdRun := false }
      ∧ ((answering [plain, plain]).cfg.enforceWritable = true → writable (trigReg exampleCfg) = true)
      ∧ rewriteAnswered (trigReg exampleCfg) (payload 0x00 0x00 0x40 ^^^ trigMask exampleCfg) 0x0C 0x00 0x00 0x40 0x0C 0x00 0x00 0x40
          { answering [plain, plain] with wdRun := false } :=
  ⟨⟨rfl, rfl⟩, fun _ => rfl, rfl, rfl⟩

/-- `WdSetIntervalProgramsAndRestarts`, at the largest code. -/
theorem witness_wdSetInterval :
    ∃ s u v : State, ready s ∧ (3 : U32).toNat ≤ 3 ∧ cfgOk s.cfg = true
      ∧ rewriteAnswered 0x3F (merged s.cfg.wdCfgEnMask s.cfg.wdCfgEnMask (payload 0x00 0x00 0x40))
          0x0C 0x00 0x00 0x40 0x0C 0x00 0x00 0x40 s
      ∧ u = rewritten 0x3F (merged s.cfg.wdCfgEnMask s.cfg.wdCfgEnMask (payload 0x00 0x00 0x40))
          0x0C 0x00 0x00 0x40 0x0C 0x00 0x00 0x40 s
      ∧ rewriteAnswered s.cfg.wdSelReg (merged s.cfg.wdSelMask ((3 : U32) <<< s.cfg.wdSelPos.toNat) (payload 0x00 0x00 0x40))
          0x0C 0x00 0x00 0x40 0x0C 0x00 0x00 0x40 u
      ∧ v = rewritten s.cfg.wdSelReg (merged s.cfg.wdSelMask ((3 : U32) <<< s.cfg.wdSelPos.toNat) (payload 0x00 0x00 0x40))
          0x0C 0x00 0x00 0x40 0x0C 0x00 0x00 0x40 u :=
  ⟨answering [plain, plain, plain, plain], _, _, ⟨rfl, rfl⟩, by decide, by decide, ⟨rfl, rfl⟩, rfl, ⟨rfl, rfl⟩, rfl⟩

/-- `EnableAndDisableSetTheRunningFlag`, and every statement that asks only for FAULTED = 0. -/
theorem witness_not_faulted : (answering []).faulted = false := rfl

/-- `ModeSetWritesTheModeAndStopsForStandby`: each mode's value. -/
theorem witness_modeSet :
    ready (answering [plain, plain]) ∧ cfgOk (answering [plain, plain]).cfg = true
      ∧ (∀ value ∈ [exampleCfg.modeValActive, exampleCfg.modeValStandby1, exampleCfg.modeValStandby2],
          rewriteAnswered exampleCfg.modeReg (merged exampleCfg.modeMask value (payload 0x00 0x00 0x40))
            0x0C 0x00 0x00 0x40 0x0C 0x00 0x00 0x40 (answering [plain, plain])) :=
  ⟨⟨rfl, rfl⟩, by decide, fun _ _ => ⟨rfl, rfl⟩⟩

/-- `MaintainWhileStoppedChecksAndSleeps`: no sample for ARG = 0, and three. -/
theorem witness_maintain_stopped :
    (ready { scripted exampleCfg [] [] with wdRun := false } ∧ ([] : List U64).length = (0 : U32).toNat)
      ∧ ready { scripted exampleCfg [] [5, 5, 60] with wdRun := false }
      ∧ { scripted exampleCfg [] [5, 5, 60] with wdRun := false }.env.samples = [5, 5, 60]
      ∧ ([5, 5, 60] : List U64).length = (3 : U32).toNat
      ∧ ((scripted exampleCfg [] [5, 5, 60]).env.clock :: [5, 5, 60]).Pairwise (· ≤ ·) :=
  ⟨⟨⟨rfl, rfl⟩, rfl⟩, ⟨rfl, rfl⟩, rfl, rfl, by decide⟩

/-- `MaintainRefreshesAtExactlyItsExpiries`, with just enough answers; a scripted sample is the one seen. -/
theorem witness_maintain :
    ready (scripted exampleCfg [plain, plain] [50]) ∧ cfgOk exampleCfg = true
      ∧ 2 * (1 : U32).toNat ≤ (scripted exampleCfg [plain, plain] [50]).env.answers.length
      ∧ (∀ a ∈ (scripted exampleCfg [plain, plain] [50]).env.answers, ∃ b : Rx4, a = rxAnswer b)
      ∧ checksOwed (scripted exampleCfg [plain, plain] [50]) [⟨50, some ((0x0C, 0x00, 0x00, 0x40), (0x0C, 0x00, 0x00, 0x40))⟩] := by
  refine ⟨⟨rfl, rfl⟩, by decide, by decide, fun a ha => ⟨(0x0C, 0x00, 0x00, 0x40), ?_⟩, by decide, by decide, ?_⟩
  · simpa [scripted, State.afterReset, plain, rxAnswer] using ha
  · intro cs more hc hl _
    cases cs with
    | nil => simp at hl
    | cons c cs =>
      have hn : cs = [] := by simpa using hl
      subst hn
      have hh : c = 50 := by simpa [scripted, State.afterReset, eq_comm] using congrArg List.head? hc
      rw [hh]; rfl

/-- `ReadAvgReturnsTheFloorOfTheMean`, at the last bit position. -/
theorem witness_readAvg :
    ∃ s : State, ready s ∧ (31 : U32).toNat ≤ 31 ∧ s.wdRun = false ∧ averageBytes.length = 5
      ∧ ([0, 0, 60, 60, 70] : List U64).length = 5 ∧ s.env.samples = [0, 0, 60, 60, 70]
      ∧ averageBytes.getLast? = some (0x0C, 0, 0, 14) ∧ ([0, 0, 60, 60, 70] : List U64).getLast? = some 70
      ∧ s.env.answers = averageBytes.map rxAnswer ++ [plain]
      ∧ (s.env.clock :: [0, 0, 60, 60, 70]).Pairwise (· ≤ ·) :=
  ⟨{ scripted exampleCfg (averageBytes.map rxAnswer ++ [plain]) [0, 0, 60, 60, 70] with wdRun := false },
    ⟨rfl, rfl⟩, by decide, rfl, rfl, rfl, rfl, rfl, rfl, rfl, by decide⟩

/-- `ReadAvgAveragesFiveReadsWithAChecksRefreshAfterEach`, RUNNING, with just enough answers. -/
theorem witness_readAvg_running :
    ready (answering (List.replicate 15 plain)) ∧ cfgOk (answering (List.replicate 15 plain)).cfg = true
      ∧ (31 : U32).toNat ≤ 31 ∧ 15 ≤ (answering (List.replicate 15 plain)).env.answers.length
      ∧ (∀ a ∈ (answering (List.replicate 15 plain)).env.answers, ∃ b : Rx4, a = rxAnswer b) :=
  ⟨⟨rfl, rfl⟩, by decide, by decide, by decide, fun _ ha => ⟨(0x0C, 0x00, 0x00, 0x40), List.eq_of_mem_replicate ha⟩⟩

/-- `ExpiriesLieAnIntervalApart`: a check that moves WD_LAST by exactly the interval; a MAINTAIN with two refreshes. -/
theorem witness_expiries :
    (scripted exampleCfg [plain, plain] [50]).wdLast ≤ (scripted exampleCfg [plain, plain] [50]).env.clock
      ∧ (∀ arg, Instr.wdCheck ≠ .wdSetInterval arg)
      ∧ exec .wdCheck (scripted exampleCfg [plain, plain] [50]) = .next (after .wdCheck (scripted exampleCfg [plain, plain] [50]))
      ∧ (after .wdCheck (scripted exampleCfg [plain, plain] [50])).wdLast ≠ (scripted exampleCfg [plain, plain] [50]).wdLast
      ∧ refreshedAt 0x02 (after (.maintain 3) (scripted exampleCfg (List.replicate 4 plain) [50, 99, 100])).env.trace = [50, 100] :=
  ⟨by decide, by simp, rfl, by decide, by decide⟩

/-- `NextRefreshComesWithinIntervalAndSpacing`: samples 49 apart, the first refresh one short of the interval plus the spacing. -/
theorem witness_nextRefresh :
    ready (scripted exampleCfg [plain, plain] [49, 98]) ∧ cfgOk exampleCfg = true
      ∧ (scripted exampleCfg [plain, plain] [49, 98]).wdRun = true ∧ (scripted exampleCfg [plain, plain] [49, 98]).wdInterval ≠ 0
      ∧ (scripted exampleCfg [plain, plain] [49, 98]).wdLast ≤ (scripted exampleCfg [plain, plain] [49, 98]).env.clock
      ∧ samplesOf (after (.maintain 2) (scripted exampleCfg [plain, plain] [49, 98])).env.trace = [49, 98]
      ∧ ((0 : U64) :: [49, 98]).IsChain (fun a b => b.toNat ≤ a.toNat + 49) ∧ (0 : U64).toNat + 50 ≤ (98 : U64).toNat
      ∧ refreshedAt 0x02 (after (.maintain 2) (scripted exampleCfg [plain, plain] [49, 98])).env.trace = [98] :=
  ⟨⟨rfl, rfl⟩, by decide, by decide, by decide, by decide, by decide, by decide, by decide, by decide⟩

/-- `OutOfRangeOperandsAreRefused`, each clause at its first value. -/
theorem witness_outOfRange : 3 < (4 : U32).toNat ∧ 2 < (3 : U32).toNat ∧ 31 < (32 : U32).toNat := by decide

/-- `WritesToNonWritableAddressesAreRefused`, at the first address past the control registers. -/
theorem witness_notWritable :
    (answering []).faulted = false ∧ (answering []).cfg.enforceWritable = true ∧ writable 0x17 = false := by decide

/-- `WatchdogCommandsNeverEndNotWritable`. -/
theorem witness_neverNotWritable :
    cfgOk (answering [plain, plain]).cfg = true ∧ (answering [plain, plain]).res.status ≠ .notWritable
      ∧ (∀ reg data, Instr.wdRefresh ≠ .write reg data) ∧ (∀ reg mask data, Instr.wdRefresh ≠ .modify reg mask data)
      ∧ (∀ addr payload, Instr.wdRefresh ≠ .fWrite addr payload)
      ∧ exec .wdRefresh (answering [plain, plain]) = .next (after .wdRefresh (answering [plain, plain])) :=
  ⟨by decide, by decide, by simp, by simp, by simp, rfl⟩

/-- `FaultedBlockRefusesCommands` and `FaultedBlockIgnoresFrames`. -/
theorem witness_faulted :
    { answering [] with faulted := true }.faulted = true ∧ refusedWhenFaulted .wdCheck = true ∧ isFrame (.fRead 0 0) = true := by
  decide

/-- `TransportFaultEndsTheCommandAtItsFrame`: the second frame of a MODIFY fails. -/
theorem witness_transportFault :
    (answering [plain, .fail]).faulted = false
      ∧ exec (.modify 0x05 0xFF 0x42) (answering [plain, .fail]) = .next (after (.modify 0x05 0xFF 0x42) (answering [plain, .fail]))
      ∧ (after (.modify 0x05 0xFF 0x42) (answering [plain, .fail])).faulted = true :=
  ⟨rfl, rfl, by decide⟩

/-- `FirstFrameFailureLeavesOnlyTheFault`: each clause. -/
theorem witness_firstFrameFailure :
    ready (answering [.fail]) ∧ cfgOk (answering [.fail]).cfg = true
      ∧ ((answering [.fail]).cfg.enforceWritable = true → writable 0x16 = true)
      ∧ deviceAnswer (wire 0 0x16 ((1 : U32).setWidth 24)) (answering [.fail]) = .fail
      ∧ deviceAnswer (wire 1 0x16 0) (answering [.fail]) = .fail
      ∧ deviceAnswer (wire 2 0x16 ((1 : U32).setWidth 24)) (answering [.fail]) = .fail
      ∧ ((answering [.fail]).cfg.romShape = .four ∧ deviceAnswer (wire 3 0x16 0) (answering [.fail]) = .fail)
      ∧ (ready (scripted exTwo [.fail] []) ∧ cfgOk exTwo = true ∧ (scripted exTwo [.fail] []).cfg.romShape = .two
        ∧ deviceAnswer (wireRom2 0x16) (scripted exTwo [.fail] []) = .fail)
      ∧ deviceAnswer (wire 1 (trigReg exampleCfg) 0) (answering [.fail]) = .fail
      ∧ ((3 : U32).toNat ≤ 3 ∧ deviceAnswer (wire 1 0x3F 0) (answering [.fail]) = .fail)
      ∧ ((2 : U32).toNat ≤ 2 ∧ deviceAnswer (wire 1 exampleCfg.modeReg 0) (answering [.fail]) = .fail) ∧ (31 : U32).toNat ≤ 31 :=
  ⟨⟨rfl, rfl⟩, by decide, fun _ => rfl, rfl, rfl, rfl, ⟨rfl, rfl⟩, ⟨⟨rfl, rfl⟩, by decide, rfl, rfl⟩, rfl, ⟨by decide, rfl⟩,
    ⟨by decide, rfl⟩, by decide⟩

/-- `FailedSettingKeepsTheWatchdogState`: the last frame of WD_SET_INTERVAL fails, and that of MODE_SET hangs. -/
theorem witness_failedSetting :
    ((after (.wdSetInterval 3) (answering [plain, plain, plain, .fail])).faulted = true
        ∧ (answering [plain, plain, plain, .fail]).env.abandonAfter = none
        ∧ exec (.wdSetInterval 3) (answering [plain, plain, plain, .fail])
          = .next (after (.wdSetInterval 3) (answering [plain, plain, plain, .fail])))
      ∧ (after (.modeSet 1) (answering [plain, .never])).cur.busy = true
      ∧ exec (.modeSet 1) (answering [plain, .never]) = .next (after (.modeSet 1) (answering [plain, .never])) :=
  ⟨⟨by decide, rfl, rfl⟩, by decide, rfl⟩

/-- `FailedRefreshKeepsTheNewTimestamp`, just at expiry: the READ fails, the WRITE fails. -/
theorem witness_failedRefresh :
    ready (scripted exampleCfg [.fail] [50]) ∧ cfgOk (scripted exampleCfg [.fail] [50]).cfg = true
      ∧ (scripted exampleCfg [.fail] [50]).wdRun = true
      ∧ (scripted exampleCfg [.fail] [50]).wdInterval.toNat
          ≤ (clockSample (scripted exampleCfg [.fail] [50]) - (scripted exampleCfg [.fail] [50]).wdLast).toNat
      ∧ deviceAnswer (wire 1 (trigReg exampleCfg) 0)
          { checkSampled (scripted exampleCfg [.fail] [50]) with wdLast := clockSample (scripted exampleCfg [.fail] [50]) }
          = .fail
      ∧ ∃ u : State, u = { checkSampled (scripted exampleCfg [plain, .fail] [50]) with
            wdLast := clockSample (scripted exampleCfg [plain, .fail] [50]) }
          ∧ deviceAnswer (wire 1 (trigReg exampleCfg) 0) u = rxAnswer (0x0C, 0x00, 0x00, 0x40)
          ∧ deviceAnswer (wire 0 (trigReg exampleCfg) ((rxPayload (0x0C, 0x00, 0x00, 0x40) ^^^ trigMask exampleCfg).setWidth 24))
              (replied4 (wire 1 (trigReg exampleCfg) 0) 0x0C 0x00 0x00 0x40 u) = .fail :=
  ⟨⟨rfl, rfl⟩, by decide, rfl, by decide, rfl, _, rfl, rfl, rfl⟩

/-- `UnfinishedCommandIsAHungExchange`: the second frame of a MODIFY never returns, the command accepted as step accepts it (busy); and a
frame form. -/
theorem witness_unfinished :
    ∃ s : State, s = (answering [plain, .never]).setBusy true ∧ s.env.abandonAfter = none
      ∧ (isFrame (.modify 0x05 0xFF 0x42) = true → s.cur.busy = false)
      ∧ exec (.modify 0x05 0xFF 0x42) s = .next (after (.modify 0x05 0xFF 0x42) s)
      ∧ (after (.modify 0x05 0xFF 0x42) s).cur.busy = true ∧ (after (.modify 0x05 0xFF 0x42) s).env.pending = []
      ∧ (isFrame (.fRead 0 0) = true → (answering [.never]).cur.busy = false)
      ∧ (after (.fRead 0 0) (answering [.never])).cur.busy = true :=
  ⟨_, rfl, rfl, by decide, rfl, by decide, by decide, by decide, by decide⟩

/-- `ResetStrikeAbandonsTheCommand`, with the reset move that follows and a strike due after it. -/
theorem witness_resetStrike :
    ∃ s : State, s.faulted = false ∧ s.env.abandonAfter = some 0 ∧ s.env.pending = [.reset exampleCfg]
      ∧ cfgOk exampleCfg = true ∧ s.env.resetStrikes = [some 1] :=
  ⟨{ answering [] with
      env := { Env.quiet 0 with abandonAfter := some 0, pending := [.reset exampleCfg], resetStrikes := [some 1] } },
    rfl, rfl, rfl, by decide, rfl⟩

/-- After a reset move, the next command is struck in its turn (R136): MAINTAIN 1 is abandoned asleep, no result written. -/
theorem test_strike_after_reset :
    ∃ s t u : State, s.env.abandonAfter = none ∧ s.env.resetStrikes = [some 1]
      ∧ s.env.pending = [.reset exampleCfg, .present (.command 0x0E { arg := 1 })]
      ∧ step s = .next t ∧ step t = .next u ∧ u.cur.busy = true ∧ u.res = ⟨.ok, 0, false⟩
      ∧ u.env.trace = [.reset, .sample 5] ∧ step u = .fault .stuck :=
  ⟨{ answering [] with
      env := { Env.quiet 0 with
        resetStrikes := [some 1]
        samples := [4, 5]
        pending := [.reset exampleCfg, .present (.command 0x0E { arg := 1 })] } },
    _, _, rfl, rfl, rfl, rfl, rfl, by decide, by decide, by decide, rfl⟩

/-- `ResetStrikesMaintainAtAnyPrimitive`, at the first primitive, asleep, and at the last. -/
theorem witness_strikeMaintain :
    ∀ k ∈ [0, 1, 3],
      ∃ s : State, s.faulted = false ∧ s.env.abandonAfter = some k ∧ k < 2 * (2 : U32).toNat ∧ s.wdRun = false
        ∧ s.env.samples = [50, 51] ∧ [50, 51].length = (2 : U32).toNat ∧ (s.env.clock :: [50, 51]).Pairwise (· ≤ ·) := by
  intro k hk
  refine ⟨{ scripted exampleCfg [] [50, 51] with
      wdRun := false, env := { (scripted exampleCfg [] [50, 51]).env with abandonAfter := some k } },
    rfl, rfl, ?_, rfl, rfl, rfl, (by decide : ([0, 50, 51] : List U64).Pairwise (· ≤ ·))⟩
  revert k
  decide

/-- `RequestFormsAreOneTransaction`: each clause. -/
theorem witness_requestForms :
    ready (answering [plain]) ∧ (answering [plain]).cur.busy = false
      ∧ (∀ (op : BitVec 2) (p : U24), deviceAnswer (wire op 0x3F p) (answering [plain]) = .ok 0x0C 0x00 0x00 0x40)
      ∧ writable 0x3F = true ∧ ((answering [plain]).cfg.enforceWritable = true ∧ writable 0x31 = false)
      ∧ (answering [plain]).cfg.romShape = .four
      ∧ (ready (scripted exTwo [plain] []) ∧ (scripted exTwo [plain] []).cur.busy = false
        ∧ (scripted exTwo [plain] []).cfg.romShape = .two
        ∧ deviceAnswer (wireRom2 0x3F) (scripted exTwo [plain] []) = .ok 0x0C 0x00 0x00 0x40) :=
  ⟨⟨rfl, rfl⟩, rfl, fun _ _ => rfl, rfl, ⟨rfl, rfl⟩, rfl, ⟨rfl, rfl⟩, rfl, rfl, rfl⟩

/-- `StepRunsWhatIsPresented`: a command, and a frame form that only the TWO shape has. -/
theorem witness_step :
    (∃ s : State, s.env.pending = [.present (.command 0x01 { reg := 0x33 })] ∧ s.cur.busy = false
        ∧ decode s.cfg.romShape (.command 0x01 { reg := 0x33 }) = .ok (.read 0x33))
      ∧ (∃ s : State, s.env.pending = [.present (.response [1, 2])] ∧ s.cur.busy = false
        ∧ decode s.cfg.romShape (.response [1, 2]) = .ok (.fResponse2 1 2))
      ∧ (∀ code ops, Presented.response [1, 2] ≠ .command code ops) :=
  ⟨⟨{ answering [] with env := { Env.quiet 0 with pending := [.present (.command 0x01 { reg := 0x33 })] } }, rfl, rfl, rfl⟩,
    ⟨{ scripted exTwo [] [] with env := { Env.quiet 0 with pending := [.present (.response [1, 2])] } }, rfl, rfl, rfl⟩, by simp⟩

/-- `StepIsIdleStuckOrRefused`: each clause. -/
theorem witness_step_other :
    ((answering []).env.pending = [] ∧ (answering []).cur.busy = false)
      ∧ (((answering []).setBusy true).env.pending = [] ∧ ((answering []).setBusy true).cur.busy = true)
      ∧ (∃ s : State, s.env.pending = [.present (.command 0x07 {})] ∧ s.cur.busy = true)
      ∧ (∃ s : State, s.env.pending = [.present (.request [0x40, 0x00])] ∧ s.cur.busy = false
          ∧ decode s.cfg.romShape (.request [0x40, 0x00]) = .error (.twoByteNotRom 0x40)) :=
  ⟨⟨rfl, rfl⟩, ⟨rfl, rfl⟩,
    ⟨{ (answering []).setBusy true with env := { Env.quiet 0 with pending := [.present (.command 0x07 {})] } }, rfl, rfl⟩,
    ⟨{ answering [] with env := { Env.quiet 0 with pending := [.present (.request [0x40, 0x00])] } }, rfl, rfl, rfl⟩⟩

/-- `HostResetGivesACleanStart`: a checked configuration in the middle of a hung command, and one that fails R122. -/
theorem witness_hostReset :
    (∃ s : State, s.env.pending = [.reset exampleCfg] ∧ cfgOk exampleCfg = true ∧ s.cur.busy = true)
      ∧ ∃ s : State, s.env.pending = [.reset { exampleCfg with wdTrigMask0 := 3 }]
          ∧ cfgOk { exampleCfg with wdTrigMask0 := 3 } = false :=
  ⟨⟨{ (answering []).setBusy true with env := { Env.quiet 0 with pending := [.reset exampleCfg] } }, rfl, by decide, rfl⟩,
    { answering [] with env := { Env.quiet 0 with pending := [.reset { exampleCfg with wdTrigMask0 := 3 }] } }, rfl, by decide⟩

/-- `EveryStepKeepsTheInvariant`: a state with a history, and one whose next step resets it. -/
theorem witness_invariant :
    Inv (after (.read 0x33) (answering [plain])) ∧ Inv (after (.read 0x33) (answering [.never]))
      ∧ step (after (.read 0x33) (answering [plain])) = .next (after (.read 0x33) (answering [plain])) :=
  ⟨⟨by decide, ⟨1, rfl⟩, by decide, ⟨.idle, by decide, .inl ⟨rfl, by decide⟩⟩, by simp [statusOk]; decide, by decide, by decide⟩,
    ⟨by decide, ⟨1, rfl⟩, by decide, ⟨.hung, by decide, .inr ⟨rfl, by decide, by decide⟩⟩, by simp [statusOk]; decide, by decide,
      by decide⟩,
    rfl⟩

/-- `FaultedIsLeftOnlyByReset`: an idle step, and a command. -/
theorem witness_faulted_step :
    ∃ s t : State, s.faulted = true ∧ step s = .next t ∧ t.res = ⟨.faulted, 0, false⟩ :=
  ⟨{ answering [] with faulted := true, env := { Env.quiet 0 with pending := [.present (.command 0x08 {})] } }, _, rfl, rfl, rfl⟩

/-- `ExecOnlyAddsToTheHistory` and `WatchdogStateHasItsWritersOnly`. -/
theorem witness_exec :
    exec (.read 0x33) (answering [plain]) = .next (after (.read 0x33) (answering [plain])) := rfl

/-- `FramelessCommandsTouchNoPort`. -/
theorem witness_frameless :
    issuesNoFrame (.reserved 0x10) = true
      ∧ exec (.reserved 0x10) (answering []) = .next (after (.reserved 0x10) (answering [])) :=
  ⟨rfl, rfl⟩

/-- `InstructionsEmitOnlyAllowedRequests`, with frames on the port: a command's, and a frame form's. -/
theorem witness_emits :
    (exec (.modeSet 1) (answering [plain, plain]) = .next (after (.modeSet 1) (answering [plain, plain]))
        ∧ (sent (after (.modeSet 1) (answering [plain, plain]))).length = 2)
      ∧ exec (.fRead 0x3F 1) (answering [plain]) = .next (after (.fRead 0x3F 1) (answering [plain]))
      ∧ sent (after (.fRead 0x3F 1) (answering [plain])) = [[0x7F, 0, 0, 0]] :=
  ⟨⟨rfl, by decide⟩, rfl, by decide⟩

/-- `TimeLimitsAndClockRateHaveNoEffect`, with other limits. -/
theorem witness_timeLimits :
    exec .wdRefresh (answering [plain, plain]) = .next (after .wdRefresh (answering [plain, plain]))
      ∧ exampleCfg ≠ { exampleCfg with spiClockHz := 1000000 } :=
  ⟨rfl, by decide⟩

/-- `ModifyThenReadReturnsTheMergedValue` and `FramesChangeOnlyTheirRegister`. -/
theorem witness_reference :
    ready (fixture [(0x05, 0x00F0F0)] []) ∧ ((fixture [(0x05, 0x00F0F0)] []).cfg.enforceWritable = true → writable 0x05 = true)
      ∧ (fixture [(0x05, 0x00F0F0)] []).env.answers = [] ∧ (fixture [(0x05, 0x00F0F0)] []).env.device = .reference device5
      ∧ device5.mem.wf = true :=
  ⟨⟨rfl, rfl⟩, fun _ => rfl, rfl, rfl, by decide⟩

/-- `InstructionsStoreOnlyToTheirRegisters`: a form that stores, and the edges of the bytes it stores to. -/
theorem witness_storesTo :
    (fixture [(0x05, 0x00F0F0)] []).env.device = .reference device5 ∧ device5.mem.wf = true
      ∧ exec (.write 0x05 0x123456) (fixture [(0x05, 0x00F0F0)] [])
          = .next (after (.write 0x05 0x123456) (fixture [(0x05, 0x00F0F0)] []))
      ∧ (∀ a, storesTo exampleCfg (.write 0x05 0x123456) a → 14 < regBase a ∨ regBase a + 2 < 14)
      ∧ (∀ a, storesTo exampleCfg (.write 0x05 0x123456) a → 18 < regBase a ∨ regBase a + 2 < 18) :=
  ⟨rfl, by decide, rfl, fun _ h => .inl (by rw [show _ = _ from h]; decide), fun _ h => .inr (by rw [show _ = _ from h]; decide)⟩

end Sys2Proof.Tests
end

/-! ### The values no rule reads have no effect (R9, R118, R133)

Laws/Blind.lean carries a change of SPI_CLOCK_HZ and the device's time limits through the shared operations; here it is carried through the
watchdog's sequences, the loops and the frame forms, and so through every instruction. -/

namespace Sys2Proof.Machine

variable (hz : Nat) (limits : Table4) (limit : U32)

@[simp] theorem retimed_faulted (s : State) : (retimed hz limits limit s).faulted = s.faulted := rfl

@[simp] theorem retimed_wdRun (s : State) : (retimed hz limits limit s).wdRun = s.wdRun := rfl

@[simp] theorem expired_retimed (s : State) (now : U64) :
    expired (retimed hz limits limit s) now = expired s now := rfl

theorem checkRange_retimed (arg : U32) (max : Nat) (s : State) :
    checkRange arg max (retimed hz limits limit s) = (checkRange arg max s).carry (retimed hz limits limit) := by
  unfold checkRange
  split <;> rfl

theorem racFrames_retimed (list : List (Addr × U32)) (s : State) :
    racFrames list (retimed hz limits limit s) = (racFrames list s).carry (retimed hz limits limit) := by
  induction list generalizing s with
  | nil => rfl
  | cons e rest ih => exact andThen_carry (xfer_retimed hz limits limit _ _ _ s) fun _ t => ih t

theorem doRefresh_retimed (s : State) :
    doRefresh (retimed hz limits limit s) = (doRefresh s).carry (retimed hz limits limit) :=
  andThen_carry (checkWritable_retimed hz limits limit _ s) fun _ t => readThenWrite_retimed hz limits limit _ _ t

theorem checkAt_retimed (now : U64) (s : State) :
    checkAt now (retimed hz limits limit s) = (checkAt now s).carry (retimed hz limits limit) := by
  cases hx : expired s now with
  | false => simp only [checkAt, expired_retimed, hx]; rfl
  | true =>
    cases hr : s.wdRun with
    | false => simp only [checkAt, expired_retimed, retimed_wdRun, hx, hr]; rfl
    | true =>
      simp only [checkAt, expired_retimed, retimed_wdRun, hx, hr, if_true]
      exact andThen_carry (doRefresh_retimed hz limits limit (s.setLast now)) fun _ _ => rfl

theorem wdCheckBody_retimed (s : State) :
    wdCheckBody (retimed hz limits limit s) = (wdCheckBody s).carry (retimed hz limits limit) :=
  andThen_carry (sampleNow_retimed hz limits limit s) fun now t => checkAt_retimed hz limits limit now (t.setNow now)

theorem maintainLoop_retimed (n : Nat) (s : State) :
    maintainLoop n (retimed hz limits limit s) = (maintainLoop n s).carry (retimed hz limits limit) := by
  induction n generalizing s with
  | zero => rfl
  | succ n ih =>
    exact andThen_carry (wdCheckBody_retimed hz limits limit s) fun _ t =>
      andThen_carry (sleep1_retimed hz limits limit t) fun _ u => ih (u.setI (u.cur.i + 1))

theorem averageLoop_retimed (reg : Addr) (mask arg : U32) (n : Nat) (s : State) :
    averageLoop reg mask arg n (retimed hz limits limit s)
      = (averageLoop reg mask arg n s).carry (retimed hz limits limit) := by
  induction n generalizing s with
  | zero => rfl
  | succ n ih =>
    exact andThen_carry (xfer_retimed hz limits limit _ _ _ (s.setI (s.cur.i + 1))) fun v t =>
      andThen_carry (wdCheckBody_retimed hz limits limit (t.setSum (t.cur.sum + sampleField v mask arg))) fun _ u => ih u

theorem runFrame_retimed {body : State → Seq U32} (s : State)
    (h : ∀ t, body (retimed hz limits limit t) = (body t).carry (retimed hz limits limit)) :
    runFrame body (retimed hz limits limit s) = retimed hz limits limit (runFrame body s) := by
  have hb : body ((retimed hz limits limit s).setBusy true) = (body (s.setBusy true)).carry (retimed hz limits limit) :=
    h (s.setBusy true)
  simp only [runFrame, retimed_faulted, hb]
  split
  · rfl
  · cases body (s.setBusy true) <;> rfl

theorem runResponse_retimed (rx : List Byte) (gsb : Byte) (data : U32) (s : State) :
    runResponse rx gsb data (retimed hz limits limit s) = retimed hz limits limit (runResponse rx gsb data s) := by
  cases hf : s.faulted <;> simp only [runResponse, retimed_faulted, hf] <;> rfl

theorem intervalFrames_retimed (arg : U32) (s : State) :
    intervalFrames arg (retimed hz limits limit s) = (intervalFrames arg s).carry (retimed hz limits limit) :=
  andThen_carry (modifySeq_retimed hz limits limit _ _ _ s) fun _ t => modifySeq_retimed hz limits limit _ _ _ t

/-- Every instruction does the same, and leaves the values as they were put. -/
theorem exec_retimed {i : Instr} {s t : State} (h : exec i s = .next t) :
    exec i (retimed hz limits limit s) = .next (retimed hz limits limit t) := by
  have command (body : State → Seq (U32 × Bool)) (hn : (.next (runCommand body s) : Answered) = .next t)
      (hb : ∀ u, body (retimed hz limits limit u) = (body u).carry (retimed hz limits limit)) :
      (.next (runCommand body (retimed hz limits limit s)) : Answered) = .next (retimed hz limits limit t) := by
    rw [runCommand_retimed hz limits limit s hb, Host.Outcome.next.inj hn]
  have request (body : State → Seq U32) (hn : (.next (runFrame body s) : Answered) = .next t)
      (hb : ∀ u, body (retimed hz limits limit u) = (body u).carry (retimed hz limits limit)) :
      (.next (runFrame body (retimed hz limits limit s)) : Answered) = .next (retimed hz limits limit t) := by
    rw [runFrame_retimed hz limits limit s hb, Host.Outcome.next.inj hn]
  cases i with
  | write reg data =>
    exact command _ h fun u => andThen_carry (writeSeq_retimed hz limits limit _ _ u) fun _ _ => rfl
  | read reg => exact command _ h fun u => andThen_carry (xfer_retimed hz limits limit _ _ _ u) fun _ _ => rfl
  | modify reg mask data =>
    exact command _ h fun u => andThen_carry (modifySeq_retimed hz limits limit _ _ _ u) fun _ _ => rfl
  | rac reg mask => exact command _ h fun u => andThen_carry (xfer_retimed hz limits limit _ _ _ u) fun _ _ => rfl
  | racList list => exact command _ h fun u => andThen_carry (racFrames_retimed hz limits limit _ u) fun _ _ => rfl
  | readRom addr => exact command _ h fun u => andThen_carry (xfer_retimed hz limits limit _ _ _ u) fun _ _ => rfl
  | wdCheck => exact command _ h fun u => andThen_carry (wdCheckBody_retimed hz limits limit u) fun _ _ => rfl
  | wdRefresh => exact command _ h fun u => andThen_carry (doRefresh_retimed hz limits limit u) fun _ _ => rfl
  | wdSetInterval arg =>
    exact command _ h fun u => andThen_carry (checkRange_retimed hz limits limit _ _ u) fun _ v =>
      andThen_carry (intervalFrames_retimed hz limits limit arg v) fun _ w =>
        andThen_carry (sampleNow_retimed hz limits limit (w.setInterval (intervalOf w.cfg arg))) fun _ _ => rfl
  | wdEnable | wdDisable => exact command _ h fun _ => rfl
  | modeSet arg =>
    refine command _ h fun u => andThen_carry (checkRange_retimed hz limits limit _ _ u) fun _ v =>
      andThen_carry (modifySeq_retimed hz limits limit _ _ _ v) fun _ w => ?_
    split <;> rfl
  | maintain arg =>
    exact command _ h fun u => andThen_carry (maintainLoop_retimed hz limits limit _ (u.setI 0)) fun _ _ => rfl
  | readAvg reg mask arg =>
    exact command _ h fun u => andThen_carry (checkRange_retimed hz limits limit _ _ u) fun _ v =>
      andThen_carry (averageLoop_retimed hz limits limit _ _ _ _ ((v.setSum 0).setI 0)) fun _ _ => rfl
  | fWrite addr payload => exact request _ h (writeSeq_retimed hz limits limit _ _)
  | fRead | fReadAndClear | fDeviceInfo | fDeviceInfo2 => exact request _ h (xfer_retimed hz limits limit _ _ _)
  | fResponse4 | fResponse2 =>
    rw [← Host.Outcome.next.inj h]
    exact congrArg _ (runResponse_retimed hz limits limit _ _ _ s)
  | isWritable | getGsb | reserved =>
    rw [← Host.Outcome.next.inj h]
    rfl

/-- Settles O56: every shared sequence carries the change over, so every instruction does. -/
theorem timeLimitsAndClockRateHaveNoEffect : Obligations.TimeLimitsAndClockRateHaveNoEffect :=
  fun _ _ _ hz limits limit h => exec_retimed hz limits limit h

end Sys2Proof.Machine

/-! ### Watchdog checks that the device serves (R91–R93, R103 (c)) -/

namespace Sys2Proof.Machine

/-- One sample more, on what the state before it holds: whether it is an expiry (R91). -/
theorem expiryMarks_cons_expired (s : State) (c : U64) (cs : List U64) :
    expiryMarks s.wdInterval s.wdLast (c :: cs)
      = expired s c :: expiryMarks s.wdInterval (if expired s c then c else s.wdLast) cs := by
  by_cases hx : s.wdInterval.setWidth 64 ≤ c - s.wdLast <;> simp [expiryMarks, expired, hx]

/-- One sample more, on what the state before it holds: what WD_LAST becomes (R92). -/
theorem lastExpiry_cons_expired (s : State) (c : U64) (cs : List U64) :
    lastExpiry s.wdInterval s.wdLast (c :: cs)
      = lastExpiry s.wdInterval (if expired s c then c else s.wdLast) cs := by
  by_cases hx : s.wdInterval.setWidth 64 ≤ c - s.wdLast <;> simp [lastExpiry, expired, hx]

/-- What a run of checks owes depends on the watchdog's registers and the clock alone. -/
theorem checksOwed_congr {s t : State} {ks : List CheckSeen} (hi : t.wdInterval = s.wdInterval) (hl : t.wdLast = s.wdLast)
    (hr : t.wdRun = s.wdRun) (hc : t.env.clock = s.env.clock) (hs : t.env.samples = s.env.samples) :
    checksOwed t ks ↔ checksOwed s ks := by
  simp only [checksOwed, hi, hl, hr, hc, hs]

theorem checksOwed_nil (s : State) : checksOwed s [] :=
  ⟨rfl, List.pairwise_singleton _ _, fun _ _ _ hl _ => (List.length_eq_zero_iff.mp hl).symm⟩

/-- One check from `s` to `t` as the ports show it (R92): the clock sampled, a refresh at an expiry found while RUNNING, and nothing
else of what later steps read changed. -/
structure CheckDone (k : CheckSeen) (s t : State) : Prop where
  now : k.now = clockSample s
  refresh : k.refresh.isSome = (expired s k.now && s.wdRun)
  trace : t.env.trace = s.env.trace ++ checkEvents s.cfg k
  answers : s.env.answers = checkAnswers k ++ t.env.answers
  samples : t.env.samples = (takeSample s).env.samples
  clock : t.env.clock = k.now
  last : t.wdLast = if expired s k.now then k.now else s.wdLast
  interval : t.wdInterval = s.wdInterval
  run : t.wdRun = s.wdRun
  cfg : t.cfg = s.cfg
  faulted : t.faulted = s.faulted
  sum : t.cur.sum = s.cur.sum
  count : t.cur.i = s.cur.i

theorem CheckDone.last_cons {k : CheckSeen} {s t : State} (h : CheckDone k s t) (cs : List U64) :
    lastExpiry s.wdInterval s.wdLast (k.now :: cs) = lastExpiry t.wdInterval t.wdLast cs := by
  rw [lastExpiry_cons_expired, h.last, h.interval]

/-- A check made, and the rest of the run as owed from where it ends. -/
theorem CheckDone.owed_cons {k : CheckSeen} {s t : State} {ks : List CheckSeen} (h : CheckDone k s t)
    (hk : checksOwed t ks) : checksOwed s (k :: ks) := by
  obtain ⟨hmarks, hrising, hscript⟩ := hk
  have hle : s.env.clock ≤ k.now := by rw [h.now]; exact clock_le_clockSample s
  rw [h.clock] at hrising
  refine ⟨?_, ?_, ?_⟩
  · rw [List.map_cons, List.map_cons, expiryMarks_cons_expired, List.map_cons, hmarks, h.refresh, h.interval, h.run, h.last]
  · refine List.pairwise_cons.mpr ⟨fun c hc => ?_, hrising⟩
    rcases List.mem_cons.mp hc with rfl | hc
    · exact hle
    · exact BitVec.le_trans hle ((List.pairwise_cons.mp hrising).1 c hc)
  · intro cs more hcs hlen hsorted
    cases cs with
    | nil => simp at hlen
    | cons c cs =>
      obtain ⟨hrest, hnow⟩ := clockSample_scripted hcs
      have hkc : k.now = c := by rw [h.now]; exact hnow ((List.pairwise_cons.mp hsorted).1 c List.mem_cons_self)
      rw [List.map_cons, hkc, hscript cs more (h.samples.trans hrest) (by simpa using hlen)]
      rw [h.clock, hkc]
      exact (List.pairwise_cons.mp hsorted).2

/-- The state a refresh answered with these bytes leaves (R93). -/
def refreshedBy (b d : Rx4) (s : State) : State :=
  rewritten (trigReg s.cfg) (rxPayload b ^^^ trigMask s.cfg) b.1 b.2.1 b.2.2.1 b.2.2.2 d.1 d.2.1 d.2.2.1 d.2.2.2 s

theorem refreshedBy_trace (b d : Rx4) (s : State) :
    (refreshedBy b d s).env.trace = s.env.trace ++ refreshEvents s.cfg b d := by
  rw [refreshedBy, rewritten, replied4_trace, refreshEvents, ← List.append_assoc]
  rfl

/-- A refresh of a device that answers Ok uses up two answers. -/
theorem doRefresh_serving {n : Nat} {s : State} (h : Serving (n + 2) s) (hc : cfgOk s.cfg = true) :
    ∃ b d : Rx4, doRefresh s = .run () (refreshedBy b d s) ∧ Serving n (refreshedBy b d s)
      ∧ s.env.answers = rxAnswer b :: rxAnswer d :: (refreshedBy b d s).env.answers := by
  obtain ⟨b, hb, hsb, hab⟩ := replied4_serving h (wire 1 (trigReg s.cfg) 0)
  have htmp : Serving (n + 1) ((replied4 (wire 1 (trigReg s.cfg) 0) b.1 b.2.1 b.2.2.1 b.2.2.2 s).setTmp
      (rxPayload b ^^^ trigMask s.cfg)) := ⟨hsb.ready, hsb.enough, hsb.ok⟩
  obtain ⟨d, hd, hsd, had⟩ :=
    replied4_serving htmp (wire 0 (trigReg s.cfg) ((rxPayload b ^^^ trigMask s.cfg).setWidth 24))
  refine ⟨b, d, ?_, hsd, ?_⟩
  · exact doRefresh_rewritten h.ready (fun _ => (cfgOk_writable hc).1) ⟨hb, hd⟩
  · rw [hab]
    exact congrArg _ had

/-- The state in which a check has sampled the clock and, at an expiry, moved WD_LAST (R92). -/
def decided (s : State) : State :=
  { checkSampled s with wdLast := if expired s (clockSample s) then clockSample s else s.wdLast }

@[simp] theorem decided_cfg (s : State) : (decided s).cfg = s.cfg := rfl

@[simp] theorem decided_trace (s : State) : (decided s).env.trace = s.env.trace ++ [.sample (clockSample s)] := rfl

@[simp] theorem decided_clock (s : State) : (decided s).env.clock = clockSample s := takeSample_clock s

@[simp] theorem decided_answers (s : State) : (decided s).env.answers = s.env.answers := takeSample_answers s

@[simp] theorem decided_abandonAfter (s : State) : (decided s).env.abandonAfter = s.env.abandonAfter :=
  takeSample_abandonAfter s

/-- A check that owes no refresh ends where it has decided (R92). -/
theorem wdCheckBody_quiet {s : State} (h : s.env.abandonAfter = none)
    (hq : (expired s (clockSample s) && s.wdRun) = false) :
    wdCheckBody s = .run (expired s (clockSample s)) (decided s) := by
  cases hx : expired s (clockSample s) with
  | false =>
    rw [wdCheckBody_notExpired h (by simpa [expired_eq] using hx), decided, hx]
    rfl
  | true =>
    rw [wdCheckBody_stopped h (by simpa [expired_eq] using hx) (by simpa [hx] using hq), decided, hx]
    rfl

/-- A check that owes a refresh makes it from where it has decided (R92). -/
theorem wdCheckBody_refreshing {s : State} (h : s.env.abandonAfter = none)
    (hq : (expired s (clockSample s) && s.wdRun) = true) :
    wdCheckBody s = andThen (doRefresh (decided s)) fun _ t => .run true t := by
  obtain ⟨hx, hr⟩ := (Bool.and_eq_true _ _).mp hq
  rw [wdCheckBody_running h (by simpa [expired_eq] using hx) hr, decided, hx]
  rfl

/-- A check that a device answering Ok serves, RUNNING or STOPPED: it uses up two answers at the most. -/
theorem wdCheckBody_serving {n : Nat} {s : State} (h : Serving (n + 2) s) (hc : cfgOk s.cfg = true) :
    ∃ (k : CheckSeen) (e : Bool) (t : State), wdCheckBody s = .run e t ∧ CheckDone k s t ∧ Serving n t := by
  have hs : Serving (n + 2) (decided s) :=
    ⟨by simpa using h.ready, by simpa using h.enough, by simpa using h.ok⟩
  cases hq : expired s (clockSample s) && s.wdRun with
  | false =>
    refine ⟨⟨clockSample s, none⟩, _, _, wdCheckBody_quiet h.ready hq, ?_, hs.mono (Nat.le_add_right n 2)⟩
    exact {
      now := rfl, refresh := hq.symm, trace := rfl, answers := (decided_answers s).symm, samples := rfl,
      clock := decided_clock s, last := rfl, interval := rfl, run := rfl, cfg := rfl, faulted := rfl, sum := rfl, count := rfl }
  | true =>
    obtain ⟨b, d, hrun, hserving, hanswers⟩ := doRefresh_serving hs hc
    refine ⟨⟨clockSample s, some (b, d)⟩, true, refreshedBy b d (decided s), ?_, ?_, hserving⟩
    · rw [wdCheckBody_refreshing h.ready hq, hrun, andThen_run]
    · exact {
        now := rfl, refresh := hq.symm, last := rfl, interval := rfl, run := rfl, cfg := rfl, faulted := rfl,
        sum := rfl, count := rfl
        trace := by rw [refreshedBy_trace, decided_trace, List.append_assoc]; rfl
        answers := (decided_answers s).symm.trans hanswers
        samples := by simp only [refreshedBy, rewritten, replied4_samples]; rfl
        clock := by simp only [refreshedBy, rewritten, replied4_clock, decided_clock] }

end Sys2Proof.Machine

/-! ### The samples of READ_AVG (R101) -/

namespace Sys2Proof.Machine

variable {reg : Addr} {mask arg : U32}

theorem sampleField_toNat (b : Rx4) : (sampleField (rxPayload b) mask arg).toNat = fieldOf mask arg b := by
  rw [sampleField, BitVec.toNat_ushiftRight, Nat.shiftRight_eq_div_pow, fieldOf]

/-- A field is a part of a 24-bit register value (R34). -/
theorem fieldOf_lt (b : Rx4) : fieldOf mask arg b < 2 ^ 24 := by
  have hp : (rxPayload b).toNat < 2 ^ 24 := by
    rw [rxPayload, payload, BitVec.toNat_setWidth_of_le (by decide)]
    exact BitVec.isLt _
  calc fieldOf mask arg b ≤ (rxPayload b &&& mask).toNat := Nat.div_le_self _ _
    _ ≤ (rxPayload b).toNat := by rw [BitVec.toNat_and]; exact Nat.and_le_left
    _ < 2 ^ 24 := hp

/-- The sum of up to 256 fields does not wrap (R101). -/
theorem sum_sampleField_toNat (bs : List Rx4) (h : bs.length ≤ 256) :
    (bs.map fun b => sampleField (rxPayload b) mask arg).sum.toNat = (bs.map (fieldOf mask arg)).sum := by
  induction bs with
  | nil => rfl
  | cons b bs ih =>
    rw [List.length_cons] at h
    have hrest : (bs.map (fieldOf mask arg)).sum ≤ bs.length * 2 ^ 24 := by
      have hle := List.sum_le_card_nsmul (bs.map (fieldOf mask arg)) (2 ^ 24) fun x hx => by
        obtain ⟨y, -, rfl⟩ := List.mem_map.mp hx
        exact (fieldOf_lt y).le
      rwa [List.length_map, smul_eq_mul] at hle
    have hb := fieldOf_lt (mask := mask) (arg := arg) b
    rw [List.map_cons, List.sum_cons, BitVec.toNat_add, ih (by omega), sampleField_toNat, List.map_cons, List.sum_cons,
      Nat.mod_eq_of_lt (by omega)]

theorem average_toNat (sum : U32) : (average sum).toNat = sum.toNat / 5 :=
  BitVec.toNat_udiv

/-- The state after the READ of one sample answered with these bytes, its field added to CUR.sum (R101). -/
def averageRead (reg : Addr) (mask arg : U32) (b : Rx4) (s : State) : State :=
  (replied4 (wire 1 reg 0) b.1 b.2.1 b.2.2.1 b.2.2.2 (s.setI (s.cur.i + 1))).setSum
    (s.cur.sum + sampleField (rxPayload b) mask arg)

theorem averageLoop_succ {n : Nat} {s : State} {b : Rx4} (h : s.env.abandonAfter = none)
    (ha : deviceAnswer (wire 1 reg 0) s = rxAnswer b) :
    averageLoop reg mask arg (n + 1) s
      = andThen (wdCheckBody (averageRead reg mask arg b s)) fun _ t => averageLoop reg mask arg n t := by
  have hx : xfer .read reg 0 (s.setI (s.cur.i + 1))
      = .run (rxPayload b) (replied4 (wire 1 reg 0) b.1 b.2.1 b.2.2.1 b.2.2.2 (s.setI (s.cur.i + 1))) :=
    xfer_read_replied h ha
  rw [averageLoop, hx, andThen_run]
  rfl

theorem averageRead_serving {n : Nat} {s : State} (h : Serving (n + 1) s) :
    ∃ b : Rx4, deviceAnswer (wire 1 reg 0) s = rxAnswer b ∧ Serving n (averageRead reg mask arg b s)
      ∧ s.env.answers = rxAnswer b :: (averageRead reg mask arg b s).env.answers := by
  have hi : Serving (n + 1) (s.setI (s.cur.i + 1)) := ⟨h.ready, h.enough, h.ok⟩
  obtain ⟨b, hb, hs, ha⟩ := replied4_serving hi (wire 1 reg 0)
  exact ⟨b, hb, ⟨hs.ready, hs.enough, hs.ok⟩, ha⟩

/-- READ_AVG with its bit position in range, of a block that is not FAULTED: the samples, and then the mean. -/
theorem execReadAvg_of_loop {s t : State} (hf : s.faulted = false) (ha : arg.toNat ≤ maxBitPos)
    (hl : averageLoop reg mask arg avgSamples (((s.setBusy true).setSum 0).setI 0) = .run () t) :
    exec (.readAvg reg mask arg) s = .next (completed .ok (average t.cur.sum) false t) := by
  refine congrArg _ (runCommand_run hf ?_)
  rw [checkRange_passes ha, andThen_run, hl, andThen_run]

/-- Samples of READ_AVG from `s` to `t` as the ports show them (R101): of each a READ of REG and a check. -/
structure Averaged (reg : Addr) (mask arg : U32) (rs : List AverageSeen) (s t : State) : Prop where
  owed : checksOwed s (rs.map AverageSeen.check)
  trace : t.env.trace = s.env.trace ++ rs.flatMap (averageEvents s.cfg reg)
  answers : s.env.answers = rs.flatMap averageAnswers ++ t.env.answers
  last : t.wdLast = lastExpiry s.wdInterval s.wdLast (rs.map fun r => r.check.now)
  sum : t.cur.sum = s.cur.sum + ((rs.map AverageSeen.read).map fun b => sampleField (rxPayload b) mask arg).sum
  count : t.cur.i = s.cur.i + BitVec.ofNat 32 rs.length
  faulted : t.faulted = s.faulted

theorem Averaged.nil (s : State) : Averaged reg mask arg [] s s where
  owed := checksOwed_nil s
  trace := by simp
  answers := rfl
  last := rfl
  sum := by simp
  count := by simp
  faulted := rfl

theorem Averaged.cons {r : AverageSeen} {rs : List AverageSeen} {s t u : State}
    (ha : s.env.answers = rxAnswer r.read :: (averageRead reg mask arg r.read s).env.answers)
    (hk : CheckDone r.check (averageRead reg mask arg r.read s) t) (h : Averaged reg mask arg rs t u) :
    Averaged reg mask arg (r :: rs) s u where
  owed :=
    (checksOwed_congr (s := s) (t := averageRead reg mask arg r.read s) rfl rfl rfl (replied4_clock _ _ _ _ _ (s.setI _))
      (replied4_samples _ _ _ _ _ (s.setI _))).mp (hk.owed_cons h.owed)
  trace := by
    rw [h.trace, hk.trace, hk.cfg, List.flatMap_cons, averageEvents, ← List.append_assoc, ← List.append_assoc]
    rfl
  answers := by
    rw [ha, hk.answers, h.answers, List.flatMap_cons, averageAnswers, List.append_assoc, List.cons_append]
  last := by
    rw [h.last, List.map_cons]
    exact (hk.last_cons _).symm
  sum := by
    rw [h.sum, hk.sum, List.map_cons, List.map_cons, List.sum_cons, ← add_assoc]
    rfl
  count := by
    rw [h.count, hk.count, List.length_cons, BitVec.ofNat_add, add_comm (BitVec.ofNat 32 rs.length), ← add_assoc]
    rfl
  faulted := h.faulted.trans hk.faulted

/-- The samples of a READ_AVG that a device answering Ok serves: three answers for each are enough. -/
theorem averageLoop_serving (n : Nat) {s : State} (h : Serving (3 * n) s) (hc : cfgOk s.cfg = true) :
    ∃ (rs : List AverageSeen) (t : State), averageLoop reg mask arg n s = .run () t ∧ rs.length = n
      ∧ Averaged reg mask arg rs s t := by
  induction n generalizing s with
  | zero => exact ⟨[], s, rfl, rfl, .nil s⟩
  | succ n ih =>
    obtain ⟨b, hb, hread, hanswers⟩ := averageRead_serving (reg := reg) (mask := mask) (arg := arg) (n := 3 * n + 2) h
    obtain ⟨k, e, t, hrun, hk, ht⟩ := wdCheckBody_serving hread hc
    obtain ⟨rs, u, hloop, hlen, hrs⟩ := ih ht (by rw [hk.cfg]; exact hc)
    refine ⟨⟨b, k⟩ :: rs, u, ?_, by rw [List.length_cons, hlen], .cons hanswers hk hrs⟩
    rw [averageLoop_succ h.ready hb, hrun, andThen_run, hloop]

/-- Settles O28, by induction on the samples: each is a READ and a check that the device serves, and five fields of 24 bits do not wrap. -/
theorem readAvgAveragesFiveReadsWithAChecksRefreshAfterEach :
    Obligations.ReadAvgAveragesFiveReadsWithAChecksRefreshAfterEach := by
  intro reg mask arg s ⟨hf, ha⟩ hc hpos hlen hok
  have hs : Serving (3 * 5) (((s.setBusy true).setSum 0).setI 0) := ⟨ha, hlen, hok⟩
  obtain ⟨rs, t, hloop, hrs, hav⟩ := averageLoop_serving (reg := reg) (mask := mask) (arg := arg) 5 hs hc
  have hsum : t.cur.sum.toNat = (rs.map fun r => fieldOf mask arg r.read).sum := by
    rw [hav.sum, setI_cur_sum, setSum_cur_sum, zero_add, sum_sampleField_toNat _ (by simp [hrs]), List.map_map]
    rfl
  refine ⟨completed .ok (average t.cur.sum) false t, rs, average t.cur.sum, execReadAvg_of_loop hf hpos hloop, hrs,
    (checksOwed_congr rfl rfl rfl rfl rfl).mp hav.owed, hav.answers, hsum, by rw [average_toNat, hsum], ?_, hav.last, rfl, rfl, ?_,
    hav.faulted.trans hf⟩
  · exact congrArg (· ++ _) hav.trace
  · show t.cur.i = 5
    rw [hav.count, hrs]
    rfl

end Sys2Proof.Machine

/-! ### READ_AVG while STOPPED (R101) -/

namespace Sys2Proof.Machine

variable {reg : Addr} {mask arg : U32}

theorem lastExpiry_append (interval : U32) (last : U64) (cs ds : List U64) :
    lastExpiry interval last (cs ++ ds) = lastExpiry interval (lastExpiry interval last cs) ds := by
  induction cs generalizing last with
  | nil => rfl
  | cons c cs ih =>
    by_cases hx : interval.setWidth 64 ≤ c - last <;> simp [lastExpiry, hx, ih]

theorem takeSample_env_scripted {s : State} {c : U64} {rest : List U64} (h : s.env.samples = c :: rest) (hc : s.env.clock ≤ c) :
    (takeSample s).env = { s.env with samples := rest, clock := c } := by
  simp [takeSample, h, (clockSample_scripted h).2 hc]

/-- Scripted for samples of READ_AVG while STOPPED: the bytes each READ receives, and the clock sample of the check after it. -/
structure StoppedScript (rs : List (Rx4 × U64)) (s : State) : Prop where
  ready : s.env.abandonAfter = none
  stopped : s.wdRun = false
  answers : (rs.map Prod.fst).map rxAnswer <+: s.env.answers
  samples : rs.map Prod.snd <+: s.env.samples
  rising : (s.env.clock :: rs.map Prod.snd).Pairwise (· ≤ ·)

/-- The state that samples of READ_AVG leave while STOPPED, `last` the last of them (R101). -/
def averagedStopped (reg : Addr) (mask arg : U32) (rs : List (Rx4 × U64)) (last : Rx4 × U64) (s : State) : State :=
  { s with
    gsb := last.1.1
    gsbValid := true
    cs := false
    rxData := rxPayload last.1
    wdLast := lastExpiry s.wdInterval s.wdLast (rs.map Prod.snd)
    cur := { s.cur with
      sum := s.cur.sum + ((rs.map Prod.fst).map fun b => sampleField (rxPayload b) mask arg).sum
      i := s.cur.i + BitVec.ofNat 32 rs.length
      now := last.2
      step := s.cur.step + 2 * rs.length }
    env := { s.env with
      answers := s.env.answers.drop rs.length
      samples := s.env.samples.drop rs.length
      clock := last.2
      trace := s.env.trace ++ rs.flatMap fun r => averageEvents s.cfg reg ⟨r.1, ⟨r.2, none⟩⟩ } }

theorem averagedStopped_cons (r last : Rx4 × U64) (rs : List (Rx4 × U64)) (s : State) :
    averagedStopped reg mask arg rs last (averagedStopped reg mask arg [r] r s)
      = averagedStopped reg mask arg (r :: rs) last s := by
  have hlast : lastExpiry s.wdInterval (lastExpiry s.wdInterval s.wdLast [r.2]) (rs.map Prod.snd)
      = lastExpiry s.wdInterval s.wdLast (r.2 :: rs.map Prod.snd) := (lastExpiry_append _ _ [r.2] _).symm
  have hcount : 1#32 + BitVec.ofNat 32 rs.length = BitVec.ofNat 32 (rs.length + 1) := by
    rw [BitVec.ofNat_add, add_comm]
  have hstep : s.cur.step + 2 + 2 * rs.length = s.cur.step + 2 * (rs.length + 1) := by omega
  simp [averagedStopped, hlast, hcount, hstep, add_assoc]

/-- A sample leaves the script of the samples after it. -/
theorem StoppedScript.tail {r : Rx4 × U64} {rs : List (Rx4 × U64)} {s : State} (h : StoppedScript (r :: rs) s) :
    StoppedScript rs (averagedStopped reg mask arg [r] r s) where
  ready := h.ready
  stopped := h.stopped
  answers := h.answers.drop 1
  samples := h.samples.drop 1
  rising := (List.pairwise_cons.mp h.rising).2

/-- The check of a sample takes the scripted clock sample, and the sample ends where it has decided. -/
theorem decided_averageRead {r : Rx4 × U64} {rs : List (Rx4 × U64)} {s : State} (h : StoppedScript (r :: rs) s) :
    decided (averageRead reg mask arg r.1 s) = averagedStopped reg mask arg [r] r s := by
  obtain ⟨moreAnswers, hanswers⟩ := h.answers
  obtain ⟨moreSamples, hsamples⟩ := h.samples
  have hread : (averageRead reg mask arg r.1 s).env
      = { s.env with answers := s.env.answers.drop 1, trace := s.env.trace ++ bracket s.cfg (wire 1 reg 0) r.1 } := by
    simp [averageRead, replied4, envAsked, askDevice, ← hanswers, bracket]
  have hscript : (averageRead reg mask arg r.1 s).env.samples = r.2 :: s.env.samples.drop 1 := by
    rw [hread, ← hsamples]
    rfl
  have hle : (averageRead reg mask arg r.1 s).env.clock ≤ r.2 := by
    rw [hread]
    exact (List.pairwise_cons.mp h.rising).1 r.2 List.mem_cons_self
  have hlast : (if expired (averageRead reg mask arg r.1 s) r.2 then r.2 else s.wdLast)
      = lastExpiry s.wdInterval s.wdLast [r.2] :=
    (lastExpiry_cons_expired (averageRead reg mask arg r.1 s) r.2 []).symm
  simp only [decided, checkSampled, sampled, takeSample_env_scripted hscript hle, (clockSample_scripted hscript).2 hle, hread]
  simp [averagedStopped, averageRead, replied4, rxPayload, averageEvents, checkEvents, ← hlast]

/-- One sample of READ_AVG while STOPPED. -/
theorem averageLoop_stopped_succ (n : Nat) {r : Rx4 × U64} {rs : List (Rx4 × U64)} {s : State} (h : StoppedScript (r :: rs) s) :
    averageLoop reg mask arg (n + 1) s = averageLoop reg mask arg n (averagedStopped reg mask arg [r] r s) := by
  have hread : deviceAnswer (wire 1 reg 0) s = rxAnswer r.1 := by
    obtain ⟨more, hanswers⟩ := h.answers
    simp [deviceAnswer, ← hanswers]
  have hready : (averageRead reg mask arg r.1 s).env.abandonAfter = none :=
    (replied4_abandonAfter _ _ _ _ _ (s.setI _)).trans h.ready
  have hstopped : (averageRead reg mask arg r.1 s).wdRun = false := h.stopped
  rw [averageLoop_succ h.ready hread, wdCheckBody_quiet hready (by rw [hstopped, Bool.and_false]), andThen_run,
    decided_averageRead h]

/-- The samples of READ_AVG while STOPPED: one at least. -/
theorem averageLoop_stopped {last : Rx4 × U64} {rs : List (Rx4 × U64)} {s : State} (h : StoppedScript rs s)
    (hl : rs.getLast? = some last) :
    averageLoop reg mask arg rs.length s = .run () (averagedStopped reg mask arg rs last s) := by
  induction rs generalizing s with
  | nil => simp at hl
  | cons r rs ih =>
    rw [List.length_cons, averageLoop_stopped_succ _ h]
    cases rs with
    | nil =>
      obtain rfl : r = last := Option.some.inj hl
      rfl
    | cons r' rs =>
      rw [List.getLast?_cons_cons] at hl
      rw [ih h.tail hl, averagedStopped_cons]

/-- The last pair of two lists of one length. -/
theorem getLast?_zip {α β : Type} {as : List α} {bs : List β} {a : α} {b : β} (h : as.length = bs.length)
    (ha : as.getLast? = some a) (hb : bs.getLast? = some b) : (as.zip bs).getLast? = some (a, b) := by
  rw [List.getLast?_eq_getElem?] at *
  rw [List.length_zip, h, Nat.min_self, List.getElem?_zip_eq_some]
  exact ⟨h ▸ ha, hb⟩

/-- Settles O27: the exact state of each sample is that of the next one's start, and five fields of 24 bits do not wrap. -/
theorem readAvgReturnsTheFloorOfTheMean : Obligations.ReadAvgReturnsTheFloorOfTheMean := by
  intro reg mask arg s bs cs more g p1 p2 p3 c ⟨hf, ha⟩ hpos hstop hbs hcs hsamples hb hc hanswers hrising
  have hfst : (bs.zip cs).map Prod.fst = bs := List.map_fst_zip (by omega)
  have hsnd : (bs.zip cs).map Prod.snd = cs := List.map_snd_zip (by omega)
  have hlen : (bs.zip cs).length = 5 := by simp [hbs, hcs]
  have hscript : StoppedScript (bs.zip cs) (((s.setBusy true).setSum 0).setI 0) := {
    ready := ha
    stopped := hstop
    answers := ⟨more, by rw [hfst]; exact hanswers.symm⟩
    samples := ⟨[], by rw [hsnd, List.append_nil]; exact hsamples.symm⟩
    rising := by rw [hsnd]; exact hrising }
  have hloop := averageLoop_stopped (reg := reg) (mask := mask) (arg := arg) hscript (getLast?_zip (hbs.trans hcs.symm) hb hc)
  rw [hlen] at hloop
  refine ⟨(bs.map fun b => sampleField (rxPayload b) mask arg).sum, _, sum_sampleField_toNat bs (by omega), average_toNat _, ?_⟩
  rw [execReadAvg_of_loop hf hpos hloop]
  simp [averagedStopped, hfst, hsnd, hlen, hbs, hcs, hanswers, hsamples, completed, rxPayload]

end Sys2Proof.Machine

/-! ### What one step is (R24, R121, R135, R136) -/

namespace Sys2Proof.Machine

/-- A reset move with a checked configuration (R121, R122). -/
theorem step_reset {s : State} {cfg : Cfg} {more : List Move} (hp : s.env.pending = .reset cfg :: more) (hc : cfgOk cfg = true) :
    step s = .next (hostReset cfg (s.taken more)) := by
  simp only [step, fetch, hp, hc, if_true]

/-- A reset move with a configuration that fails the checks (log 19). -/
theorem step_reset_refused {s : State} {cfg : Cfg} {more : List Move} (hp : s.env.pending = .reset cfg :: more)
    (hc : cfgOk cfg = false) : step s = .refused .configRefused := by
  simp [step, fetch, hp, hc]

/-- A presented instruction is run from the state that accepts it (R24, R136). -/
theorem step_present {s : State} {p : Presented} {more : List Move} {i : Instr} (hp : s.env.pending = .present p :: more)
    (hb : s.cur.busy = false) (hd : decode s.cfg.romShape p = .ok i) : step s = exec i (accept p (s.taken more)) := by
  simp [step, fetch, hp, hb, hd]

/-- A busy block has no step but the host's reset (R135, log 7). -/
theorem step_busy {s : State} (hb : s.cur.busy = true) (hp : ∀ cfg more, s.env.pending ≠ .reset cfg :: more) :
    step s = .fault .stuck := by
  rcases hq : s.env.pending with _ | ⟨p | cfg, more⟩
  · simp [step, fetch, hq, hb]
  · simp [step, fetch, hq, hb]
  · exact absurd hq (hp cfg more)

/-- Everything a step to a next state can be: an idle host, the host's reset, or an instruction that was presented. -/
theorem step_next_cases {s t : State} (h : step s = .next t) :
    t = s
      ∨ (∃ cfg more, s.env.pending = .reset cfg :: more ∧ cfgOk cfg = true ∧ t = hostReset cfg (s.taken more))
      ∨ ∃ p more i, s.env.pending = .present p :: more ∧ s.cur.busy = false ∧ exec i (accept p (s.taken more)) = .next t := by
  rcases hp : s.env.pending with _ | ⟨p | cfg, more⟩
  · cases hb : s.cur.busy <;> simp only [step, fetch, hp, hb] at h
    · exact .inl (Host.Outcome.next.inj h).symm
    · cases h
  · cases hb : s.cur.busy
    · cases hd : decode s.cfg.romShape p with
      | ok i => exact .inr (.inr ⟨p, more, i, rfl, rfl, (step_present hp hb hd).symm.trans h⟩)
      | error e => simp [step, fetch, hp, hb, hd] at h
    · simp [step, fetch, hp, hb] at h
  · cases hc : cfgOk cfg
    · rw [step_reset_refused hp hc] at h
      cases h
    · rw [step_reset hp hc] at h
      exact .inr (.inl ⟨cfg, more, rfl, hc, (Host.Outcome.next.inj h).symm⟩)

/-- A FAULTED block does nothing with an instruction but write RES, and nothing at all with a frame form (R111, R115, log 9). -/
theorem exec_faulted {i : Instr} {s t : State} (hf : s.faulted = true) (h : exec i s = .next t) :
    isFrame i = true ∧ t = s ∨ ∃ status d f, t = completed status d f s := by
  cases i with
  | isWritable | getGsb | reserved => exact .inr ⟨_, _, _, (Host.Outcome.next.inj h).symm⟩
  | fWrite | fRead | fReadAndClear | fDeviceInfo | fDeviceInfo2 | fResponse4 | fResponse2 =>
    exact .inl ⟨rfl, (Host.Outcome.next.inj h).symm.trans (if_pos hf)⟩
  | write | read | modify | rac | racList | readRom | wdCheck | wdRefresh | wdSetInterval | wdEnable | wdDisable | modeSet
  | maintain | readAvg =>
    exact .inr ⟨_, _, _, (Host.Outcome.next.inj h).symm.trans (runCommand_faulted hf)⟩

@[simp] theorem accept_faulted (p : Presented) (s : State) : (accept p s).faulted = s.faulted := by
  cases p <;> rfl

/-- The clock sample a reset takes does not depend on the host's moves. -/
theorem clockSample_taken (s : State) (more : List Move) : clockSample (s.taken more) = clockSample s := rfl

/-- What a reset with a checked configuration leaves (R121, R137). -/
theorem cleanStart_hostReset {cfg : Cfg} (hc : cfgOk cfg = true) (s : State) : cleanStart (hostReset cfg s) :=
  ⟨rfl, rfl, rfl, rfl, rfl, rfl, (takeSample_clock s).symm, rfl, hc⟩

/-- Settles O45: what is accepted is the state each clause writes out. -/
theorem stepRunsWhatIsPresented : Obligations.StepRunsWhatIsPresented := by
  intro s p more i hp hb hd
  rw [step_present hp hb hd]
  refine ⟨?_, fun hn => ?_⟩
  · rintro code ops rfl
    rfl
  · cases p with
    | command code ops => exact absurd rfl (hn code ops)
    | request bytes => rfl
    | response bytes => rfl

/-- Settles O47: the reset's state is R121's, and its clock sample does not go back. -/
theorem hostResetGivesACleanStart : Obligations.HostResetGivesACleanStart := by
  intro s cfg more hp
  refine ⟨fun hc => ⟨_, step_reset hp hc, cleanStart_hostReset hc _, rfl, clockSample_taken s more, ?_, rfl, ?_, ?_⟩,
    step_reset_refused hp⟩
  · exact clock_le_clockSample s
  · exact takeSample_answers (s.taken more)
  · exact takeSample_device (s.taken more)

/-- Settles O48: R121's values are those of CLEAN_START, and the board's configuration is a checked one. -/
theorem resetStateIsACleanStart : Obligations.ResetStateIsACleanStart :=
  ⟨⟨rfl, rfl, rfl, rfl, rfl, rfl, rfl, rfl, Config.board.ok⟩, rfl, rfl⟩

/-- Settles O51: a step from a FAULTED state is idle, the host's reset, or an instruction that leaves FAULTED alone. -/
theorem faultedIsLeftOnlyByReset : Obligations.FaultedIsLeftOnlyByReset := by
  intro s t hf h
  rcases step_next_cases h with rfl | ⟨cfg, more, hp, -, -⟩ | ⟨p, more, i, -, -, he⟩
  · exact .inl hf
  · exact .inr ⟨cfg, more, hp⟩
  · have hf' : (accept p (s.taken more)).faulted = true := (accept_faulted p _).trans hf
    rcases exec_faulted hf' he with ⟨-, rfl⟩ | ⟨status, d, f, rfl⟩
    · exact .inl hf'
    · exact .inl hf'

/-- A response received by itself, of a block that is not FAULTED (log 10). -/
theorem runResponse_received {s : State} (hf : s.faulted = false) (rx : List Byte) (gsb : Byte) (data : U32) :
    runResponse rx gsb data s = (receive gsb data s).record [.response rx] := by
  simp [runResponse, hf]

/-- Settles O44: both forms are one reception. -/
theorem responseFormsAreCached : Obligations.ResponseFormsAreCached :=
  fun _ _ _ _ hf => ⟨congrArg _ (runResponse_received hf _ _ _), congrArg _ (runResponse_received hf _ _ _)⟩

/-- Settles O21: the body is one refresh that the device answers, whatever WD_RUN is. -/
theorem wdRefreshTogglesTheTriggerBit : Obligations.WdRefreshTogglesTheTriggerBit := by
  intro s b0 b1 b2 b3 c0 c1 c2 c3 ⟨hf, ha⟩ hw hr
  rw [← completed_setBusy _ _ _ true, ← rewritten_setBusy]
  refine congrArg _ (runCommand_run hf ?_)
  rw [doRefresh_rewritten (s := s.setBusy true) ha hw ((rewriteAnswered_setBusy ..).mpr hr)]
  rfl

end Sys2Proof.Machine

/-! ### What every instruction keeps (R18–R22, R45, R55–R59) -/

namespace Sys2Proof.Machine

variable {i : Instr} {s t u : State}

/-- What an instruction `i` run from `s` makes of `P`, when `R` holds while it runs and `E` where it ends early: its start, its ends, and the
forms that run no sequence. -/
structure Outcomes (i : Instr) (s : State) (R E P : State → Prop) : Prop where
  start : s.faulted = false → R (s.setBusy true)
  done : isFrame i = false → ∀ t d f, R t → P (completed .ok d f t)
  sent : isFrame i = true → ∀ t, R t → P (t.setBusy false)
  early : ∀ t, E t → P t
  told : ∀ status d f, status ≠ .transportFault → (status = .faulted → s.faulted = true) → P (completed status d f s)
  unheeded : isFrame i = true → s.faulted = true → P s
  response : isFrame i = true → s.faulted = false → ∀ g d rx, (rx.length = 4 ∨ rx.length = 2) → rx.head? = some g → d.toNat < 2 ^ 24 →
    P ((receive g d s).record [.response rx])

/-- What the primitives keep and the ends make of it, every instruction leaves. -/
theorem exec_leaves {c : Cfg} {ok : List Byte → Prop} {R E P : State → Prop} (h : CommandClosed i c ok R E) (ho : Outcomes i s R E P)
    (he : exec i s = .next t) : P t := by
  cases hi : isFrame i with
  | false =>
    exact exec_command_leaves h hi ho.start (ho.done hi) ho.early (fun hf => ho.told _ _ _ nofun fun _ => hf)
      (fun _ _ => ho.told _ _ _ nofun nofun) (fun _ => ho.told _ _ _ nofun nofun) he
  | true =>
    exact exec_frame_leaves h hi ho.start (ho.sent hi) ho.early (ho.unheeded hi)
      (fun g d rx hf => ho.response hi hf g d rx) he

/-- A frame is an allowed request in the configured SPI mode. -/
def allowedEvent (c : Cfg) : Event → Prop
  | .frame mode tx _ => mode = spiMode c ∧ requestAllowed c tx
  | _ => True

/-- `i`, or a piece of it, leads from `s` to `t`: it has added allowed frames to the history, and written of the configuration, the
host's moves, its operands and the watchdog's registers only what is its own to write. -/
structure Ran (i : Instr) (s t : State) : Prop where
  trace : ∃ es, t.env.trace = s.env.trace ++ es ∧ ∀ e ∈ es, allowedEvent s.cfg e
  cfg : t.cfg = s.cfg
  pending : t.env.pending = s.env.pending
  strikes : t.env.resetStrikes = s.env.resetStrikes
  clock : s.env.clock ≤ t.env.clock
  code : t.cur.code = s.cur.code
  ops : t.cur.ops = s.cur.ops
  run : ¬ setsRun i → t.wdRun = s.wdRun
  interval : ¬ setsInterval i → t.wdInterval = s.wdInterval
  last : ¬ setsLast i → t.wdLast = s.wdLast

theorem Ran.trans (h : Ran i s t) (k : Ran i t u) : Ran i s u where
  trace := by
    obtain ⟨es, he, hes⟩ := h.trace
    obtain ⟨fs, hf, hfs⟩ := k.trace
    exact ⟨es ++ fs, by rw [hf, he, List.append_assoc], List.forall_mem_append.mpr ⟨hes, h.cfg ▸ hfs⟩⟩
  cfg := k.cfg.trans h.cfg
  pending := k.pending.trans h.pending
  strikes := k.strikes.trans h.strikes
  clock := BitVec.le_trans h.clock k.clock
  code := k.code.trans h.code
  ops := k.ops.trans h.ops
  run hn := (k.run hn).trans (h.run hn)
  interval hn := (k.interval hn).trans (h.interval hn)
  last hn := (k.last hn).trans (h.last hn)

theorem Ran.setBusy (s : State) (b : Bool) : Ran i s (s.setBusy b) := by constructor <;> simp

theorem Ran.begun (s : State) : Ran i s (begun s) := by constructor <;> simp [Machine.begun]

theorem Ran.answered {tx : List Byte} (h : requestAllowed s.cfg tx) (b0 b1 b2 b3 : Byte) :
    Ran i s (answered tx b0 b1 b2 b3 s) := by
  constructor <;> simp [Machine.answered, receive, bracketed, allowedEvent, h]

theorem Ran.faultedBy {tx : List Byte} (h : requestAllowed s.cfg tx) : Ran i s (faultedBy tx s) := by
  constructor <;> simp [Machine.faultedBy, finish, bracketed, allowedEvent, h]

theorem Ran.hung {tx : List Byte} (h : requestAllowed s.cfg tx) : Ran i s (hung tx (askDevice tx s)) := by
  constructor <;> simp [Machine.hung, allowedEvent, h]

theorem Ran.sampled (s : State) : Ran i s ((takeSample s).record [.sample (clockSample s)]) := by
  constructor <;> simp [allowedEvent, clock_le_clockSample]

theorem Ran.completed (status : Status) (d : U32) (f : Bool) (s : State) : Ran i s (completed status d f s) := by
  constructor <;> simp [Machine.completed, allowedEvent]

theorem Ran.received (gsb : Byte) (d : U32) (rx : List Byte) (s : State) : Ran i s ((receive gsb d s).record [.response rx]) := by
  constructor <;> simp [receive, allowedEvent]

/-- A READ goes out with a zero dummy (R55). -/
theorem requestAllowed_read (c : Cfg) (a : Addr) : requestAllowed c (wire 1 a 0) :=
  ⟨_, decode_read c.romShape a, rfl, rfl, nofun⟩

/-- A WRITE passes once its address is checked (R59, R87). -/
theorem requestAllowed_write {c : Cfg} {a : Addr} (h : c.enforceWritable = true → writable a = true) (p : U24) :
    requestAllowed c (wire 0 a p) := by
  refine ⟨_, decode_write c.romShape a p, rfl, rfl, fun b q hi he => ?_⟩
  cases hi
  exact h he

theorem requestAllowed_readAndClear (c : Cfg) (a : Addr) (p : U24) : requestAllowed c (wire 2 a p) :=
  ⟨_, decode_readAndClear c.romShape a p, rfl, rfl, nofun⟩

/-- A ROM request has the configured length and a zero dummy (R55, R56, R58). -/
theorem requestAllowed_rom (c : Cfg) (a : Addr) : requestAllowed c (requestFrame c.romShape .deviceInfo a 0) := by
  rw [requestAllowed]
  cases c.romShape with
  | four => exact ⟨.fDeviceInfo a 0, by rw [requestFrame_rom4]; exact decode_rom4 a, rfl, rfl, nofun⟩
  | two => exact ⟨.fDeviceInfo2 a 0, by rw [requestFrame_rom2]; exact decode_rom2 a, rfl, rfl, nofun⟩

/-- Whatever an instruction does on its way, it keeps what `Ran` says. -/
theorem ran_closed (i : Instr) (s : State) : CommandClosed i s.cfg (requestAllowed s.cfg) (Ran i s) (Ran i s) where
  begins t ht := ht.trans (.begun t)
  struck _ ht _ := ht
  reply _ b0 b1 b2 b3 _ hok ht := ht.trans (.answered (ht.cfg ▸ hok) b0 b1 b2 b3)
  fail _ _ hok ht := ht.trans (.faultedBy (ht.cfg ▸ hok))
  never _ _ hok ht := ht.trans (.hung (ht.cfg ▸ hok))
  sample t ht := ht.trans (.sampled t)
  sleep t ht := ht.trans (by constructor <;> simp [allowedEvent])
  tmp t v ht := ht.trans (by constructor <;> simp)
  sum t v ht := ht.trans (by constructor <;> simp)
  count t v ht := ht.trans (by constructor <;> simp)
  now t v ht := ht.trans (by constructor <;> simp)
  same _ ht := ht.cfg
  okRead := requestAllowed_read s.cfg
  okWrite _ p _ hw := requestAllowed_write hw p
  okRac a p _ := requestAllowed_readAndClear s.cfg a p
  okRom := requestAllowed_rom s.cfg
  run hi t b ht := ht.trans (by constructor <;> simp [hi])
  interval hi t arg ht := ht.trans (by constructor <;> simp [hi])
  expiry hi t ht _ := (ht.trans (.sampled t)).trans (by constructor <;> simp [hi])
  restart hi t ht := (ht.trans (.sampled t)).trans (by constructor <;> simp [setsLast, hi])
  notWritable t _ _ ht _ _ := ht.trans (.completed _ _ _ t)
  outOfRange t _ ht := ht.trans (.completed _ _ _ t)

/-- An instruction keeps what `Ran` says. -/
theorem exec_ran (he : exec i s = .next t) : Ran i s t := by
  refine exec_leaves (ran_closed i s) (P := Ran i s) ?_ he
  exact {
    start _ := .setBusy s true
    done _ t d f ht := ht.trans (.completed _ _ _ t)
    sent _ t ht := ht.trans (.setBusy t false)
    early _ ht := ht
    told _ _ _ _ _ := .completed _ _ _ s
    unheeded _ _ := by constructor <;> simp
    response _ _ g d rx _ _ _ := .received g d rx s }

/-- Settles O52: a part of what every instruction keeps. -/
theorem execOnlyAddsToTheHistory : Obligations.ExecOnlyAddsToTheHistory := by
  intro i s t he
  have h := exec_ran he
  obtain ⟨es, htrace, -⟩ := h.trace
  exact ⟨⟨es, htrace⟩, h.cfg, h.pending, h.strikes, h.clock, h.code, h.ops⟩

/-- Settles O53: a part of what every instruction keeps. -/
theorem watchdogStateHasItsWritersOnly : Obligations.WatchdogStateHasItsWritersOnly := by
  intro i s t he
  have h := exec_ran he
  refine ⟨fun hen hdis hmode => h.run ?_, fun hset => h.interval fun ⟨arg, hi⟩ => hset arg hi, fun hcheck hmaintain havg hset => h.last ?_⟩
  · rintro (hi | hi | ⟨arg, hi⟩)
    · exact hen hi
    · exact hdis hi
    · exact hmode arg hi
  · rintro (hi | ⟨arg, hi⟩ | ⟨reg, mask, arg, hi⟩ | ⟨arg, hi⟩)
    · exact hcheck hi
    · exact hmaintain arg hi
    · exact havg reg mask arg hi
    · exact hset arg hi

/-- Settles O55: a part of what every instruction keeps. -/
theorem instructionsEmitOnlyAllowedRequests : Obligations.InstructionsEmitOnlyAllowedRequests := by
  intro i s t he
  obtain ⟨es, htrace, hes⟩ := (exec_ran he).trace
  exact ⟨es, htrace, fun _ _ _ hm => hes _ hm⟩

end Sys2Proof.Machine

/-! ### How an instruction can end (R108, R109, R111, R135) -/

namespace Sys2Proof.Machine

variable {i : Instr} {s t u : State}

/-- The event is no failed frame and no result. -/
def uneventful : Event → Prop
  | .frame _ _ .fail => False
  | .result _ => False
  | _ => True

/-- A sequence started in `s` still runs in `t`: no frame has failed, no result is written, and no strike of the host's reset has come
where none was due. -/
structure Going (s t : State) : Prop where
  trace : ∃ es, t.env.trace = s.env.trace ++ es ∧ ∀ e ∈ es, uneventful e
  cfg : t.cfg = s.cfg
  res : t.res = s.res
  faulted : t.faulted = s.faulted
  strike : s.env.abandonAfter = none → t.env.abandonAfter = none

theorem Going.refl (s : State) : Going s s := by constructor <;> simp

theorem Going.trans (h : Going s t) (k : Going t u) : Going s u where
  trace := by
    obtain ⟨es, he, hes⟩ := h.trace
    obtain ⟨fs, hf, hfs⟩ := k.trace
    exact ⟨es ++ fs, by rw [hf, he, List.append_assoc], List.forall_mem_append.mpr ⟨hes, hfs⟩⟩
  cfg := k.cfg.trans h.cfg
  res := k.res.trans h.res
  faulted := k.faulted.trans h.faulted
  strike ha := k.strike (h.strike ha)

theorem Going.begun (s : State) : Going s (begun s) := by constructor <;> simp +contextual [Machine.begun]

theorem Going.answered (tx : List Byte) (b0 b1 b2 b3 : Byte) (s : State) : Going s (answered tx b0 b1 b2 b3 s) := by
  constructor <;> simp [Machine.answered, receive, bracketed, uneventful]

theorem Going.sampled (s : State) : Going s ((takeSample s).record [.sample (clockSample s)]) := by
  constructor <;> simp [uneventful]

/-- The states an instruction can leave: its result written, its frame sent, struck by the host's reset, at a failed or a hung exchange,
or, of a frame form, not heeded or received by itself. -/
inductive Ending (i : Instr) (s : State) : State → Prop
  | completed {u : State} (h : Going s u) (status : Status) (d : U32) (f : Bool) : Ending i s (completed status d f u)
  | sent {u : State} (h : Going s u) : Ending i s (u.setBusy false)
  | struck {u : State} (h : Going s u) (hs : s.env.abandonAfter ≠ none) : Ending i s u
  | failed {u : State} {tx : List Byte} (h : Going s u) (htx : tx ≠ []) : Ending i s (faultedBy tx u)
  | hung {u : State} {tx : List Byte} (h : Going s u) : Ending i s (hung tx (askDevice tx u))
  | unheeded (hi : isFrame i = true) : Ending i s s
  | received (hi : isFrame i = true) (g : Byte) (d : U32) (rx : List Byte) : Ending i s ((receive g d s).record [.response rx])

theorem requestFrame_ne_nil (shape : Shape) (op : Op) (a : Addr) (v : U32) : requestFrame shape op a v ≠ [] := by
  rcases requestFrame_length shape op a v with h | h <;> exact List.ne_nil_of_length_pos (by omega)

theorem ending_closed (i : Instr) (s : State) : CommandClosed i s.cfg (· ≠ []) (Going s) (Ending i s) where
  begins t ht := ht.trans (.begun t)
  struck _ ht ha := .struck ht fun hn => by simp [ht.strike hn] at ha
  reply tx b0 b1 b2 b3 t _ ht := ht.trans (.answered tx b0 b1 b2 b3 t)
  fail _ _ hok ht := .failed ht hok
  never _ _ _ ht := .hung ht
  sample t ht := ht.trans (.sampled t)
  sleep t ht := ht.trans (by constructor <;> simp [uneventful])
  tmp t v ht := ht.trans (by constructor <;> simp)
  sum t v ht := ht.trans (by constructor <;> simp)
  count t v ht := ht.trans (by constructor <;> simp)
  now t v ht := ht.trans (by constructor <;> simp)
  same _ ht := ht.cfg
  okRead _ := List.cons_ne_nil _ _
  okWrite _ _ _ _ := List.cons_ne_nil _ _
  okRac _ _ _ := List.cons_ne_nil _ _
  okRom a := requestFrame_ne_nil _ _ a 0
  run _ t b ht := ht.trans (by constructor <;> simp)
  interval _ t arg ht := ht.trans (by constructor <;> simp)
  expiry _ t ht _ := (ht.trans (.sampled t)).trans (by constructor <;> simp)
  restart _ t ht := (ht.trans (.sampled t)).trans (by constructor <;> simp)
  notWritable _ _ _ ht _ _ := .completed ht _ _ _
  outOfRange _ _ ht := .completed ht _ _ _

/-- Every instruction ends in one of these ways. -/
theorem exec_ending (he : exec i s = .next t) : Ending i s t := by
  refine exec_leaves (ending_closed i s) (P := Ending i s) ?_ he
  exact {
    start _ := by constructor <;> simp
    done _ _ d f ht := .completed ht .ok d f
    sent _ _ ht := .sent ht
    early _ ht := ht
    told status d f _ _ := .completed (.refl s) status d f
    unheeded hi _ := .unheeded hi
    response hi _ g d rx _ _ _ := .received hi g d rx }

/-- Settles O36: of the ways an instruction can end only the failed exchange sets FAULTED. -/
theorem transportFaultEndsTheCommandAtItsFrame : Obligations.TransportFaultEndsTheCommandAtItsFrame := by
  intro i s t hs he ht
  cases exec_ending he with
  | @failed u tx h htx =>
    obtain ⟨header, rest, rfl⟩ := List.exists_cons_of_ne_nil htx
    obtain ⟨es, htrace, hes⟩ := h.trace
    refine ⟨es, spiMode u.cfg, header, rest, ?_, rfl, rfl, rfl, fun _ _ hm => hes _ hm, fun _ hm => hes _ hm⟩
    simp [faultedBy, finish, bracketed, headerByte, htrace]
  | completed h | sent h | struck h | hung h =>
    have hf : s.faulted = true := by simpa [completed, hung, h.faulted] using ht
    simp [hs] at hf
  | unheeded | received =>
    have hf : s.faulted = true := ht
    simp [hs] at hf

/-- A FAULTED block leaves no instruction unfinished (R111). -/
theorem exec_faulted_busy (hf : s.faulted = true) (hb : isFrame i = true → s.cur.busy = false) (he : exec i s = .next t) :
    t.cur.busy = false := by
  rcases exec_faulted hf he with ⟨hi, rfl⟩ | ⟨_, _, _, rfl⟩
  · exact hb hi
  · rfl

/-- Settles O40: of the ways an instruction can end only the hung exchange leaves CUR.busy set when no strike is due. -/
theorem unfinishedCommandIsAHungExchange : Obligations.UnfinishedCommandIsAHungExchange := by
  intro i s t ha hb he ht
  have hs : s.faulted = false := by
    by_contra hf
    simp [exec_faulted_busy (by simpa using hf) hb he] at ht
  cases exec_ending he with
  | @hung u tx h =>
    obtain ⟨es, htrace, -⟩ := h.trace
    refine ⟨?_, ?_, ?_, ⟨es, tx, ?_⟩, step_busy ht⟩
    · simpa [Machine.hung] using h.res
    · simpa [Machine.hung, hs] using h.faulted
    · simp [Machine.hung, h.cfg]
    · simp [Machine.hung, h.cfg, htrace]
  | struck h hn => exact absurd ha hn
  | unheeded hi | received hi =>
    have hbusy : s.cur.busy = true := ht
    simp [hb hi] at hbusy
  | completed | sent | failed => cases ht

end Sys2Proof.Machine

/-! ### The invariant (R17, R19, R20, R23, R25, R26, R34, R41, R108, R111, R122) -/

namespace Sys2Proof.Machine

variable {i : Instr} {s t : State}

theorem observeAll_append {v w : PortView} {es : List Event} (fs : List Event) (h : observeAll v es = some w) :
    observeAll v (es ++ fs) = observeAll w fs := by
  induction es generalizing v with
  | nil => rw [← Option.some.inj h]; rfl
  | cons e es ih =>
    rw [List.cons_append, observeAll]
    rw [observeAll] at h
    cases hv : observe v e with
    | none => simp [hv] at h
    | some v' =>
      rw [hv] at h
      exact ih h

/-- Between exchanges: the history is legal and explains the state, and CS is 0. -/
structure PortIdle (s : State) : Prop where
  seen : observeAll .fresh s.env.trace = some (viewOf .idle s)
  cs : s.cs = false

theorem PortIdle.historyOk (h : PortIdle s) : historyOk s :=
  ⟨.idle, h.seen, .inl ⟨rfl, h.cs⟩⟩

/-- A block that is not busy hangs in no exchange (R109, R135). -/
theorem portIdle_of_historyOk (h : historyOk s) (hb : s.cur.busy = false) : PortIdle s := by
  obtain ⟨phase, hseen, ⟨rfl, hcs⟩ | ⟨-, -, hbusy⟩⟩ := h
  · exact ⟨hseen, hcs⟩
  · simp [hb] at hbusy

/-- Events that lead an observer from what it knows of `s` to what it should know of `t`. -/
theorem PortIdle.seen_append {phase : Phase} {es : List Event} (h : PortIdle s) (ht : t.env.trace = s.env.trace ++ es)
    (hv : observeAll (viewOf .idle s) es = some (viewOf phase t)) : observeAll .fresh t.env.trace = some (viewOf phase t) := by
  rw [ht, observeAll_append es h.seen, hv]

/-- The lengths an exchange can have (R58). -/
abbrev portLength (tx : List Byte) : Prop :=
  tx.length = 4 ∨ tx.length = 2

theorem responseBytes_length {tx : List Byte} (h : portLength tx) (b0 b1 b2 b3 : Byte) :
    (responseBytes tx b0 b1 b2 b3).length = tx.length := by
  rcases h with h | h <;> simp [responseBytes, h]

theorem responseBytes_head (tx : List Byte) (b0 b1 b2 b3 : Byte) :
    (responseBytes tx b0 b1 b2 b3).head? = some (parseResponse tx b0 b1 b2 b3).1 := by
  by_cases h : tx.length = 2 <;> simp [responseBytes, parseResponse, h, parseRom2, parseResponse4]

/-- A response hands on at most 24 bits (R34). -/
theorem parseResponse_lt (tx : List Byte) (b0 b1 b2 b3 : Byte) : (parseResponse tx b0 b1 b2 b3).2.toNat < 2 ^ 24 := by
  unfold parseResponse parseRom2 parseResponse4 unpackPayload
  split
  · rw [BitVec.toNat_setWidth]
    omega
  · rw [BitVec.toNat_setWidth]
    omega

/-- The invariant between exchanges. -/
structure Settled (s : State) : Prop extends Inv s, PortIdle s

/-- While an instruction's sequence runs: the invariant, no exchange in flight, no frame failed. -/
structure Running (c : Cfg) (s : State) : Prop extends Settled s where
  healthy : s.faulted = false
  same : s.cfg = c

/-- Between exchanges the invariant says nothing of CUR, of WD_RUN, of the host's moves and of its strikes. -/
theorem Settled.relocated (h : Settled s) (cur : Cur) (run : Bool) (pending : List Move) (strike : Option Nat) :
    Settled { s with cur := cur, wdRun := run, env := { s.env with pending := pending, abandonAfter := strike } } :=
  have hi : PortIdle { s with cur := cur, wdRun := run, env := { s.env with pending := pending, abandonAfter := strike } } :=
    ⟨h.seen, h.cs⟩
  ⟨⟨h.cfg, h.interval, h.last, hi.historyOk, h.status, h.payload, h.device⟩, hi⟩

theorem Running.relocated {c : Cfg} (h : Running c s) (cur : Cur) (run : Bool) (strike : Option Nat) :
    Running c { s with cur := cur, wdRun := run, env := { s.env with abandonAfter := strike } } :=
  ⟨h.toSettled.relocated cur run s.env.pending strike, h.healthy, h.same⟩

/-- Asking the device is not seen at the ports. -/
theorem Settled.asked (h : Settled s) (tx : List Byte) : Settled (askDevice tx s) := by
  have hv : viewOf .idle (askDevice tx s) = viewOf .idle s := by rw [askDevice_eq]; rfl
  have hi : PortIdle (askDevice tx s) := ⟨by rw [askDevice_trace, h.seen, hv], by rw [askDevice_cs, h.cs]⟩
  exact { hi with
    cfg := by simpa using h.cfg
    interval := by simpa [intervalInTable] using h.interval
    last := by simpa using h.last
    history := hi.historyOk
    status := by simpa [statusOk] using h.status
    payload := by simpa using h.payload
    device := wf_askDevice tx s h.device }

theorem Running.asked {c : Cfg} (h : Running c s) (tx : List Byte) : Running c (askDevice tx s) :=
  ⟨h.toSettled.asked tx, by rw [askDevice_faulted, h.healthy], by rw [askDevice_cfg, h.same]⟩

/-- The state after the bracket of a frame answered Ok, the response received (R17, R41, R78). -/
theorem PortIdle.replied (h : PortIdle s) (hf : s.faulted = false) {tx rx : List Byte} {g : Byte} (hl : portLength tx)
    (hr : rx.length = tx.length) (hg : rx.head? = some g) (d : U32) : PortIdle (receive g d (bracketed tx (.ok rx) s)) where
  seen := h.seen_append rfl (by simp [observeAll, observe, viewOf, receive, bracketed, hf, hl, hr, hg])
  cs := rfl

/-- The state after the bracket of a failed frame and its result (R108). -/
theorem PortIdle.failed (h : PortIdle s) (hf : s.faulted = false) {tx : List Byte} (hl : portLength tx) (d : U32) :
    PortIdle (finish .transportFault d false { bracketed tx .fail s with faulted := true }) where
  seen := h.seen_append (es := [.select, .frame (spiMode s.cfg) tx .fail, .deselect, .result ⟨.transportFault, d, false⟩])
    (by simp [finish, bracketed]) (by simp [observeAll, observe, viewOf, finish, bracketed, hf, hl])
  cs := rfl

theorem PortIdle.historyOk_hung (h : PortIdle s) (hf : s.faulted = false) {tx : List Byte} (hl : portLength tx) :
    Machine.historyOk (hung tx s) :=
  ⟨.hung, h.seen_append rfl (by simp [observeAll, observe, viewOf, hung, hf, hl]), .inr ⟨rfl, rfl, rfl⟩⟩

theorem viewOf_sampled (phase : Phase) (es : List Event) (s : State) : viewOf phase ((takeSample s).record es) = viewOf phase s := by
  rw [takeSample_eq]
  rfl

theorem PortIdle.sampled (h : PortIdle s) (hf : s.faulted = false) :
    PortIdle ((takeSample s).record [.sample (clockSample s)]) where
  seen := h.seen_append (es := [.sample (clockSample s)]) (by simp) (by rw [viewOf_sampled]; simp [observeAll, observe, viewOf, hf])
  cs := by simpa using h.cs

theorem PortIdle.slept (h : PortIdle s) (hf : s.faulted = false) : PortIdle (s.record [.sleep]) where
  seen := h.seen_append rfl (show _ = some (viewOf .idle s) by simp [observeAll, observe, viewOf, hf])
  cs := h.cs

theorem PortIdle.completed (h : PortIdle s) (status : Status) (d : U32) (f : Bool) : PortIdle (completed status d f s) where
  seen := h.seen_append (es := [.result ⟨status, d, f⟩]) rfl rfl
  cs := h.cs

theorem PortIdle.received (h : PortIdle s) (hf : s.faulted = false) {g : Byte} {rx : List Byte} (hg : rx.head? = some g) (d : U32) :
    PortIdle ((receive g d s).record [.response rx]) where
  seen := h.seen_append (es := [.response rx]) rfl (by simp [observeAll, observe, viewOf, receive, hf, hg])
  cs := h.cs

/-- A result that is no transport fault keeps the invariant (R25, R111). -/
theorem Settled.completed (h : Settled s) {status : Status} (d : U32) (f : Bool) (hs : status ≠ .transportFault)
    (hf : status = .faulted → s.faulted = true) : Inv (completed status d f s) :=
  { h with
    history := (h.toPortIdle.completed status d f).historyOk
    status := fun ht => ht.elim (fun ht => absurd ht hs) hf }

theorem Settled.received (h : Settled s) (hf : s.faulted = false) {g : Byte} {d : U32} {rx : List Byte} (hg : rx.head? = some g)
    (hd : d.toNat < 2 ^ 24) : Inv ((receive g d s).record [.response rx]) :=
  { h with
    history := (h.toPortIdle.received hf hg d).historyOk
    payload := hd }

variable {c : Cfg}

theorem Running.answered (h : Running c s) {tx : List Byte} (hl : portLength tx) (b0 b1 b2 b3 : Byte) :
    Running c (answered tx b0 b1 b2 b3 s) :=
  have k := h.asked tx
  have hi := k.toPortIdle.replied k.healthy hl (responseBytes_length hl b0 b1 b2 b3) (responseBytes_head tx b0 b1 b2 b3) _
  { hi, k with
    history := hi.historyOk
    payload := parseResponse_lt tx b0 b1 b2 b3 }

theorem Running.faultedBy (h : Running c s) {tx : List Byte} (hl : portLength tx) : Inv (faultedBy tx s) :=
  have k := h.asked tx
  { k with
    history := (k.toPortIdle.failed k.healthy hl _).historyOk
    status := fun _ => rfl }

theorem Running.hung (h : Running c s) {tx : List Byte} (hl : portLength tx) : Inv (hung tx (askDevice tx s)) :=
  have k := h.asked tx
  { k with history := k.toPortIdle.historyOk_hung k.healthy hl }

theorem Running.sampled (h : Running c s) : Running c ((takeSample s).record [.sample (clockSample s)]) :=
  have hi := h.toPortIdle.sampled h.healthy
  { hi with
    cfg := by simpa using h.cfg
    interval := by simpa [intervalInTable] using h.interval
    last := by simpa using BitVec.le_trans h.last (clock_le_clockSample s)
    history := hi.historyOk
    status := by simpa [statusOk] using h.status
    payload := by simpa using h.payload
    device := by simpa using h.device
    healthy := by simpa using h.healthy
    same := by simpa using h.same }

theorem Running.slept (h : Running c s) : Running c (s.record [.sleep]) :=
  have hi := h.toPortIdle.slept h.healthy
  { hi, h with history := hi.historyOk }

/-- The watchdog's registers may take an entry of the table and a time no later than the clock (R19, R20). -/
theorem Running.rearmed (h : Running c s) {interval : U32} {last : U64} (hinterval : ∃ code, interval = tableGet c.wdIntervalMs code)
    (hlast : last ≤ s.env.clock) : Running c ((s.setInterval interval).setLast last) :=
  have hi : PortIdle ((s.setInterval interval).setLast last) := ⟨h.seen, h.cs⟩
  { hi, h with
    interval := by simpa [intervalInTable, h.same] using hinterval
    last := hlast
    history := hi.historyOk }

theorem Running.interval_mem (h : Running c s) : ∃ code, s.wdInterval = tableGet c.wdIntervalMs code := by
  rw [← h.same]
  exact h.interval

/-- WD_LAST may be set to the clock sample just taken (R20). -/
theorem Running.restarted (h : Running c s) :
    Running c (((takeSample s).record [.sample (clockSample s)]).setLast (clockSample s)) :=
  h.sampled.rearmed h.sampled.interval_mem (by simp)

theorem portLength_wire (op : BitVec 2) (a : Addr) (p : U24) : portLength (wire op a p) :=
  .inl rfl

/-- Whatever an instruction does on its way, it keeps the invariant. -/
theorem inv_closed (i : Instr) (c : Cfg) : CommandClosed i c portLength (Running c) Inv where
  begins _ h := h.relocated _ _ _
  struck _ h _ := h.toInv
  reply _ b0 b1 b2 b3 _ hl h := h.answered hl b0 b1 b2 b3
  fail _ _ hl h := h.faultedBy hl
  never _ _ hl h := h.hung hl
  sample _ h := h.sampled
  sleep _ h := h.slept
  tmp _ _ h := h.relocated _ _ _
  sum _ _ h := h.relocated _ _ _
  count _ _ h := h.relocated _ _ _
  now _ _ h := h.relocated _ _ _
  same _ h := h.same
  okRead a := portLength_wire 1 a 0
  okWrite a p _ _ := portLength_wire 0 a p
  okRac a p _ := portLength_wire 2 a p
  okRom a := requestFrame_length c.romShape .deviceInfo a 0
  run _ _ b h := h.relocated _ b _
  interval _ _ arg h := h.rearmed ⟨intervalCode arg, rfl⟩ h.last
  expiry _ _ h _ := h.restarted
  restart _ _ h := h.restarted
  notWritable _ _ _ h _ _ := h.completed _ _ nofun nofun
  outOfRange _ _ h := h.completed _ _ nofun nofun

/-- An instruction accepted between exchanges keeps the invariant. -/
theorem exec_inv (h : Settled s) (he : exec i s = .next t) : Inv t := by
  refine exec_leaves (inv_closed i s.cfg) (P := Inv) ?_ he
  exact {
    start hf := ⟨h.relocated _ _ _ _, hf, rfl⟩
    done _ _ d f ht := ht.completed d f nofun nofun
    sent _ _ ht := (ht.relocated _ _ _).toInv
    early _ ht := ht
    told _ d f := h.completed d f
    unheeded _ _ := h.toInv
    response _ hf _ _ _ _ hg hd := h.received hf hg hd }

/-- The state after a reset with a checked configuration meets the invariant whatever came before: a reset is legal in any history and
forgets it (R121). -/
theorem Inv.hostReset (h : Inv s) {cfg : Cfg} (hc : cfgOk cfg = true) : Inv (hostReset cfg s) := by
  have hi : PortIdle (Machine.hostReset cfg s) := by
    obtain ⟨phase, hseen, -⟩ := h.history
    exact ⟨(observeAll_append [.reset] hseen).trans rfl, rfl⟩
  exact {
    cfg := hc
    interval := ⟨cfg.wdDefaultCode, rfl⟩
    last := by simp [Machine.hostReset, State.afterReset, envAfterReset]
    history := hi.historyOk
    status := nofun
    payload := Nat.two_pow_pos 24
    device := by simpa [Machine.hostReset, State.afterReset, envAfterReset] using h.device }

/-- Settles O49: the board's configuration is a checked one, and nothing has been on the port. -/
theorem resetMeetsTheInvariant : Obligations.ResetMeetsTheInvariant where
  cfg := Config.board.ok
  interval := ⟨_, rfl⟩
  last := BitVec.le_refl _
  history := PortIdle.historyOk ⟨rfl, rfl⟩
  status := nofun
  payload := Nat.two_pow_pos 24
  device := wf_reset

/-- Taking the host's move and accepting what it presents keeps the invariant of a block that is not busy (R24). -/
theorem settled_accept (h : Inv s) (hb : s.cur.busy = false) (p : Presented) (more : List Move) :
    Settled (accept p (s.taken more)) := by
  have hs : Settled s := ⟨h, portIdle_of_historyOk h.history hb⟩
  cases p with
  | command code ops => exact hs.relocated _ _ _ _
  | request bytes => exact hs.relocated _ _ _ _
  | response bytes => exact hs.relocated _ _ _ _

/-- Settles O50: an idle host changes nothing, a reset starts the history anew, and an instruction keeps the invariant at every piece of
its sequence. -/
theorem everyStepKeepsTheInvariant : Obligations.EveryStepKeepsTheInvariant := by
  intro s t h hstep
  rcases step_next_cases hstep with rfl | ⟨cfg, more, -, hc, rfl⟩ | ⟨p, more, i, -, hb, he⟩
  · exact h
  · have htaken : Inv (s.taken more) := ⟨h.cfg, h.interval, h.last, h.history, h.status, h.payload, h.device⟩
    exact htaken.hostReset hc
  · exact exec_inv (settled_accept h hb p more) he

end Sys2Proof.Machine

/-! ### The wire's bits (R36, R37) -/

namespace Sys2Proof.Machine

theorem frameWord_concat (bytes : List Byte) (b : Byte) :
    frameWord (bytes ++ [b]) = 2 ^ 8 * frameWord bytes + b.toNat := by
  simp [frameWord]

/-- One byte's bits by their position on the wire. -/
theorem byteBits_eq_map (b : Byte) : byteBits b = (List.range 8).map fun k => b.toNat.testBit (7 - k) := rfl

/-- Settles O9, by induction on the bytes from the last one: it goes out last, as the low eight bits of the frame word. -/
theorem wireCarriesFrameWordMostSignificantFirst : Obligations.WireCarriesFrameWordMostSignificantFirst := by
  intro bytes
  induction bytes using List.reverseRecOn with
  | nil => rfl
  | append_singleton bytes b ih =>
    have hbit (j : Nat) : (frameWord (bytes ++ [b])).testBit j
        = if j < 8 then b.toNat.testBit j else (frameWord bytes).testBit (j - 8) := by
      rw [frameWord_concat, Nat.testBit_two_pow_mul_add _ b.isLt]
    have hlen : 8 * (bytes ++ [b]).length = 8 * bytes.length + 8 := by simp [Nat.mul_add]
    have hwire : wireBits (bytes ++ [b]) = wireBits bytes ++ byteBits b := by simp [wireBits]
    rw [hwire, ih, byteBits_eq_map, hlen, List.range_add, List.map_append, List.map_map]
    congr 1
    · refine List.map_congr_left fun i hi => ?_
      have hi : i < 8 * bytes.length := List.mem_range.mp hi
      rw [hbit, if_neg (by omega)]
      congr 1
      omega
    · refine List.map_congr_left fun k hk => ?_
      have hk : k < 8 := List.mem_range.mp hk
      have hj : 8 * bytes.length + 8 - 1 - (8 * bytes.length + k) = 7 - k := by omega
      rw [Function.comp_apply, hbit, hj, if_pos (by omega)]

end Sys2Proof.Machine

/-! ### The writability check (R33, R85, R87, R106) -/

namespace Sys2Proof.Machine

/-- The writable addresses, in numbers (R33). -/
theorem writable_eq_decide (a : Addr) :
    writable a = decide (0x01 ≤ a.toNat ∧ a.toNat ≤ 0x16 ∨ a.toNat = 0x3F) := by
  simp [writable, BitVec.toNat_eq, Bool.decide_or, Bool.decide_and, Bool.beq_eq_decide_eq]

/-- Settles O10: the command is its check's answer. -/
theorem isWritableAnswersTheRangeCheck : Obligations.IsWritableAnswersTheRangeCheck := by
  intro reg s
  rw [← writable_eq_decide]
  rfl

/-- A read-modify-write that its check refuses sends no frame (R87, R106). -/
theorem modifySeq_refused {a : Addr} {mask data : U32} {s : State} (he : s.cfg.enforceWritable = true)
    (hw : writable a = false) : modifySeq a mask data s = .ended (completed .notWritable (a.setWidth 32) false s) := by
  simp [modifySeq, checkWritable, he, hw, raise, finish_eq_completed]

/-- Settles O32: both sequences start with the check, and its refusal ends the command. -/
theorem writesToNonWritableAddressesAreRefused : Obligations.WritesToNonWritableAddressesAreRefused := by
  intro reg mask data s hf he hw
  constructor
  · refine congrArg _ (runCommand_ended hf ?_)
    rw [writeSeq_refused (s := s.setBusy true) he hw, andThen_ended, completed_setBusy]
  · refine congrArg _ (runCommand_ended hf ?_)
    rw [modifySeq_refused (s := s.setBusy true) he hw, andThen_ended, completed_setBusy]

end Sys2Proof.Machine

/-! ### The register commands on the reference device (R51, R79–R82, R89) -/

namespace Sys2Proof.Machine

variable {d : RefDevice} {s : State}

/-- WRITE on the reference device, behind its check. -/
theorem exec_write_reference (hf : s.faulted = false) (h : serves d s) (reg : Addr) (v : U32)
    (hw : s.cfg.enforceWritable = true → writable reg = true) :
    ∃ t, exec (.write reg v) s = .next t ∧ serves ⟨regWrite d.mem reg (v.setWidth 24), d.gsbs.tail⟩ t := by
  obtain ⟨x, t, hx, ht, -, -⟩ := xfer_write_reference (s := s.setBusy true) h reg v
  refine ⟨completed .ok 0 false t, congrArg _ (runCommand_run hf ?_), ht⟩
  rw [writeSeq, checkWritable_passes (s := s.setBusy true) hw, andThen_run, hx, andThen_run]

/-- READ on the reference device. -/
theorem exec_read_reference (hf : s.faulted = false) (h : serves d s) (reg : Addr) :
    ∃ t, exec (.read reg) s = .next t ∧ serves ⟨d.mem, d.gsbs.tail⟩ t
      ∧ t.res = ⟨.ok, (regRead d.mem reg).setWidth 32, false⟩ := by
  obtain ⟨t, hx, ht, -, -⟩ := xfer_read_reference (s := s.setBusy true) h reg
  refine ⟨completed .ok _ false t, congrArg _ (runCommand_run hf ?_), ht, rfl⟩
  rw [hx, andThen_run]

/-- RAC on the reference device: it answers the register as it was before the clear. -/
theorem exec_rac_reference (hf : s.faulted = false) (h : serves d s) (reg : Addr) (v : U32) :
    ∃ t, exec (.rac reg v) s = .next t
      ∧ serves ⟨regWrite d.mem reg (regRead d.mem reg &&& ~~~(v.setWidth 24)), d.gsbs.tail⟩ t
      ∧ t.res = ⟨.ok, (regRead d.mem reg).setWidth 32, false⟩ := by
  obtain ⟨t, hx, ht, -, -⟩ := xfer_rac_reference (s := s.setBusy true) h reg v
  refine ⟨completed .ok _ false t, congrArg _ (runCommand_run hf ?_), ht, rfl⟩
  rw [hx, andThen_run]

/-- MODIFY on the reference device: its two frames leave the merged value in the register. -/
theorem exec_modify_reference (hf : s.faulted = false) (h : serves d s) (reg : Addr) (mask data : U32)
    (hw : s.cfg.enforceWritable = true → writable reg = true) :
    ∃ t, exec (.modify reg mask data) s = .next t
      ∧ serves ⟨regWrite d.mem reg ((merged mask data ((regRead d.mem reg).setWidth 32)).setWidth 24), d.gsbs.tail.tail⟩ t
      ∧ t.faulted = false := by
  obtain ⟨t, hread, ht, -, hft⟩ := xfer_read_reference (s := s.setBusy true) h reg
  obtain ⟨x, u, hwrite, hu, -, hfu⟩ := xfer_write_reference
    (s := t.setTmp (merged mask data ((regRead d.mem reg).setWidth 32))) ht reg
    (merged mask data ((regRead d.mem reg).setWidth 32))
  refine ⟨completed .ok 0 false u, congrArg _ (runCommand_run hf ?_), hu, hfu.trans (hft.trans hf)⟩
  have hpair : readThenWrite reg (merge mask data) (s.setBusy true) = .run () u := by
    rw [readThenWrite, hread, andThen_run]
    exact congrArg (andThen · _) hwrite
  rw [modifySeq, checkWritable_passes (s := s.setBusy true) hw, andThen_run, hpair, andThen_run]

/-- A register keeps bits 23:0 of what is written to it (R34). -/
theorem setWidth_24_32 (v : U32) : (v.setWidth 24).setWidth 32 = v &&& 0x00FFFFFF := by
  apply BitVec.eq_of_toNat_eq
  have hmod : v.toNat % 2 ^ 24 < 2 ^ 32 := by omega
  rw [BitVec.toNat_setWidth, BitVec.toNat_setWidth, BitVec.toNat_and, Nat.mod_eq_of_lt hmod]
  exact (Nat.and_two_pow_sub_one_eq_mod v.toNat 24).symm

/-- Settles O57: MODIFY leaves the merged value in the register, and READ answers what stands there. -/
theorem modifyThenReadReturnsTheMergedValue : Obligations.ModifyThenReadReturnsTheMergedValue := by
  intro reg mask data s d ⟨hf, ha⟩ hw hanswers hdevice hwf
  obtain ⟨t, ht, hserves, hft⟩ := exec_modify_reference hf ⟨ha, hanswers, hdevice⟩ reg mask data hw
  obtain ⟨u, hu, -, hres⟩ := exec_read_reference hft hserves reg
  refine ⟨t, u, ht, hu, ?_⟩
  rw [hres, regRead_regWrite _ _ hwf, setWidth_24_32]

/-- Settles O58: each command is one transaction with the device, and a register write stays inside the register's three bytes. -/
theorem framesChangeOnlyTheirRegister : Obligations.FramesChangeOnlyTheirRegister := by
  intro reg v s d ⟨hf, ha⟩ hanswers hdevice hwf
  have h : serves d s := ⟨ha, hanswers, hdevice⟩
  refine ⟨fun hw => ?_, ?_, ?_⟩
  · obtain ⟨t, ht, ⟨-, -, he⟩⟩ := exec_write_reference hf h reg v hw
    exact ⟨t, _, ht, he, regRead_regWrite _ _ hwf, fun _ => read_regWrite_outside _ _ hwf⟩
  · obtain ⟨t, ht, ⟨-, -, he⟩, hres⟩ := exec_rac_reference hf h reg v
    exact ⟨t, _, ht, he, regRead_regWrite _ _ hwf, hres, fun _ => read_regWrite_outside _ _ hwf⟩
  · obtain ⟨t, ht, ⟨-, -, he⟩, hres⟩ := exec_read_reference hf h reg
    exact ⟨t, _, ht, he, hres, rfl⟩

end Sys2Proof.Machine

/-! ### The memory frame of every instruction (R39, R51, R88) -/

namespace Sys2Proof.Machine

/-- The byte lies outside every register that `i` stores to. -/
def untouched (c : Cfg) (i : Instr) (x : Nat) : Prop :=
  ∀ a, storesTo c i a → x < regBase a ∨ regBase a + 2 < x

/-- The request leaves the reference device's bytes outside the registers of `i` as they were. -/
def sparing (c : Cfg) (i : Instr) (tx : List Byte) : Prop :=
  ∀ d : RefDevice, d.mem.wf = true → ∀ x, untouched c i x → (refReply c d tx).2.read x = d.mem.read x

/-- What an instruction checks for writability it may store to (R87, R88). -/
theorem storesTo_of_guards {c : Cfg} {i : Instr} {a : Addr} (h : guards c i a) : storesTo c i a := by
  cases i with
  | write | modify | fWrite | wdCheck | wdRefresh | maintain | readAvg | wdSetInterval | modeSet => exact h
  | read | rac | racList | readRom | isWritable | getGsb | wdEnable | wdDisable | reserved | fRead | fReadAndClear
  | fDeviceInfo | fDeviceInfo2 | fResponse4 | fResponse2 => exact h.elim

/-- A ROM read changes no byte, in either shape (R51). -/
theorem refReply_rom_mem (c : Cfg) (shape : Shape) (d : RefDevice) (a : Addr) :
    (refReply c d (requestFrame shape .deviceInfo a 0)).2 = d.mem := by
  cases shape with
  | four => simp only [requestFrame_rom4, refReply, wire, opOf_deviceInfo]
  | two => rfl

variable {i : Instr} {c : Cfg} {d : RefDevice} {s t : State}

theorem sparing_read (a : Addr) : sparing c i (wire 1 a 0) := by
  intro d _ x _
  rw [refReply_read]

theorem sparing_rom (a : Addr) : sparing c i (requestFrame c.romShape .deviceInfo a 0) := by
  intro d _ x _
  rw [refReply_rom_mem]

theorem sparing_write {a : Addr} (h : storesTo c i a) (p : U24) : sparing c i (wire 0 a p) := by
  intro d hd x hx
  rw [refReply_write]
  exact read_regWrite_outside a _ hd (hx a h)

theorem sparing_readAndClear {a : Addr} (h : storesTo c i a) (p : U24) : sparing c i (wire 2 a p) := by
  intro d hd x hx
  rw [refReply_readAndClear]
  exact read_regWrite_outside a _ hd (hx a h)

/-- `i`, run on the reference device `d` under the configuration `c`, has so far led to `t`: the memory is canonical, and every byte outside
the registers of `i` is as it was. -/
structure Spared (i : Instr) (c : Cfg) (d : RefDevice) (t : State) : Prop where
  same : t.cfg = c
  memory : ∃ e : RefDevice, t.env.device = .reference e ∧ e.mem.wf = true
    ∧ ∀ x, untouched c i x → e.mem.read x = d.mem.read x

/-- Only the configuration and the device matter. -/
theorem Spared.congr (h : Spared i c d s) (hcfg : t.cfg = s.cfg) (hdevice : t.env.device = s.env.device) : Spared i c d t :=
  ⟨hcfg.trans h.same, by rw [hdevice]; exact h.memory⟩

/-- Asking the device with a request that spares the bytes: a scripted answer leaves the device alone (log 3). -/
theorem Spared.asked (h : Spared i c d s) {tx : List Byte} (htx : sparing c i tx) : Spared i c d (askDevice tx s) := by
  obtain ⟨e, he, hwf, hread⟩ := h.memory
  refine ⟨by rw [askDevice_cfg, h.same], ?_⟩
  rcases ha : s.env.answers with _ | ⟨answer, rest⟩
  · refine ⟨refAfter s.cfg e tx, by simp [askDevice, ha, he], wf_refReply s.cfg e tx hwf, fun x hx => ?_⟩
    rw [refAfter, h.same, htx e hwf x hx, hread x hx]
  · exact ⟨e, by simp [askDevice, ha, he], hwf, hread⟩

/-- Only asking the device moves its memory. -/
theorem spared_closed (i : Instr) (c : Cfg) (d : RefDevice) :
    CommandClosed i c (sparing c i) (Spared i c d) (Spared i c d) where
  begins _ h := h.congr rfl rfl
  struck _ h _ := h
  reply _ _ _ _ _ _ hok h := (h.asked hok).congr rfl rfl
  fail _ _ hok h := (h.asked hok).congr rfl rfl
  never _ _ hok h := (h.asked hok).congr rfl rfl
  sample _ h := h.congr (by simp) (by simp)
  sleep _ h := h.congr rfl rfl
  tmp _ _ h := h.congr rfl rfl
  sum _ _ h := h.congr rfl rfl
  count _ _ h := h.congr rfl rfl
  now _ _ h := h.congr rfl rfl
  same _ h := h.same
  okRead := sparing_read
  okWrite _ p hg _ := sparing_write (storesTo_of_guards hg) p
  okRac _ p hs := sparing_readAndClear hs p
  okRom := sparing_rom
  run _ _ _ h := h.congr rfl rfl
  interval _ _ _ h := h.congr rfl rfl
  expiry _ _ h _ := h.congr (by simp) (by simp)
  restart _ _ h := h.congr (by simp) (by simp)
  notWritable _ _ _ h _ _ := h.congr rfl rfl
  outOfRange _ _ h := h.congr rfl rfl

/-- Settles O59: every request of an instruction spares the bytes outside its registers, and nothing else moves the memory. -/
theorem instructionsStoreOnlyToTheirRegisters : Obligations.InstructionsStoreOnlyToTheirRegisters := by
  intro i s t d hd hwf he
  have hs : Spared i s.cfg d s := ⟨rfl, d, hd, hwf, fun _ _ => rfl⟩
  refine (exec_leaves (spared_closed i s.cfg d) (P := Spared i s.cfg d) ?_ he).memory
  exact {
    start _ := hs.congr rfl rfl
    done _ _ _ _ h := h.congr rfl rfl
    sent _ _ h := h.congr rfl rfl
    early _ h := h
    told _ _ _ _ _ := hs.congr rfl rfl
    unheeded _ _ := hs
    response _ _ _ _ _ _ _ _ := hs.congr rfl rfl }

end Sys2Proof.Machine

/-! ### Command codes (R60, R61) -/

namespace Sys2Proof.Machine

/-- Every code from 0x10 up is reserved (R61). -/
theorem decodeCommand_reserved {code : BitVec 5} (h : 16 ≤ code.toNat) (ops : Operands) :
    decodeCommand code ops = .reserved code := by
  unfold decodeCommand
  split
  case h_17 => rfl
  all_goals omega

/-- A code of five bits decodes under every shape (R60). -/
theorem decode_command (shape : Shape) (code : BitVec 5) (ops : Operands) :
    decode shape (.command (code.setWidth 8) ops) = .ok (decodeCommand code ops) := by
  have hlt : (code.setWidth 8).toNat < 32 := by rw [BitVec.toNat_setWidth]; omega
  rw [decode, if_pos hlt, BitVec.setWidth_setWidth_of_le _ (by decide), BitVec.setWidth_eq]

/-- What is presented as a command decodes only to a code's command (R60). -/
theorem decode_command_eq_ok {shape : Shape} {code : Byte} {ops : Operands} {i : Instr}
    (h : decode shape (.command code ops) = .ok i) : i = decodeCommand (code.setWidth 5) ops := by
  rw [decode] at h
  split at h
  · exact (Except.ok.inj h).symm
  · cases h

theorem decodeCommand_wellFormed_fits (shape : Shape) (code : BitVec 5) (ops : Operands) :
    (decodeCommand code ops).wellFormed = true ∧ (decodeCommand code ops).fits shape = true := by
  unfold decodeCommand
  split
  case h_17 =>
    simp only [imp_false] at *
    exact ⟨decide_eq_true (by omega), rfl⟩
  all_goals exact ⟨rfl, rfl⟩

/-- Settles O12: the decoder's last row takes every code from 0x10 up, and the meaning of a reserved code is its refusal. -/
theorem reservedCodeAnswersInvalidSelector : Obligations.ReservedCodeAnswersInvalidSelector := by
  intro shape code ops s
  refine ⟨fun h => ?_, rfl⟩
  rw [decode_command, decodeCommand_reserved h]

end Sys2Proof.Machine

/-! ### What the decoder reads, and what it refuses by name (R52–R58, R67, log 19) -/

namespace Sys2Proof.Machine

/-- The kind a header names is its bits 7:6 (R54). -/
theorem opOf_eq_iff (b : Byte) (op : Op) : opOf b = op ↔ b.extractLsb' 6 2 = (opBits op).extractLsb' 6 2 := by
  revert b
  cases op <;> decide

/-- A form with a dummy is read only when its dummy passes (R55, R56). -/
theorem withDummy_eq_ok {ok : Bool} {header : Byte} {i j : Instr} (h : withDummy ok header j = .ok i) :
    ok = true ∧ i = j := by
  cases ok with
  | true => exact ⟨rfl, (Except.ok.inj h).symm⟩
  | false => cases h

variable {header : Byte}

theorem decode_request_read (hop : opOf header = .read) (shape : Shape) (b1 b2 b3 : Byte) :
    decode shape (.request [header, b1, b2, b3])
      = withDummy (dummyPayloadOk (b1 ++ b2 ++ b3)) header (.fRead (header.setWidth 6) (b1 ++ b2 ++ b3)) := by
  simp only [decode, decodeRequest, decodeRequest4, hop]

theorem decode_request_rom4 (hop : opOf header = .deviceInfo) (b1 b2 b3 : Byte) :
    decode .four (.request [header, b1, b2, b3])
      = withDummy (dummyPayloadOk (b1 ++ b2 ++ b3)) header (.fDeviceInfo (header.setWidth 6) (b1 ++ b2 ++ b3)) := by
  simp only [decode, decodeRequest, decodeRequest4, hop]

theorem decode_request_rom2 (hop : opOf header = .deviceInfo) (dummy : Byte) :
    decode .two (.request [header, dummy])
      = withDummy (dummyByteOk dummy) header (.fDeviceInfo2 (header.setWidth 6) dummy) := by
  simp only [decode, decodeRequest, decodeRequest2, hop]

/-- A ROM request of the other shape's length is refused (R58). -/
theorem decode_request_romLength (hop : opOf header = .deviceInfo) (b1 b2 b3 : Byte) :
    decode .two (.request [header, b1, b2, b3]) = .error (.romLength 4)
      ∧ decode .four (.request [header, b1]) = .error (.romLength 2) := by
  simp only [decode, decodeRequest, decodeRequest4, decodeRequest2, hop, and_self]

/-- Only a ROM request has two bytes (R56). -/
theorem decode_request_twoByteNotRom (hop : opOf header ≠ .deviceInfo) (shape : Shape) (dummy : Byte) :
    decode shape (.request [header, dummy]) = .error (.twoByteNotRom header) := by
  rw [decode, decodeRequest]
  unfold decodeRequest2
  split
  · exact absurd ‹_› hop
  · rfl

/-- A frame has four bytes or two (R58). -/
theorem decode_frame_length {bytes : List Byte} (h4 : bytes.length ≠ 4) (h2 : bytes.length ≠ 2) (shape : Shape) :
    decode shape (.request bytes) = .error (.requestLength bytes.length)
      ∧ decode shape (.response bytes) = .error (.responseLength bytes.length) := by
  constructor
  · rw [decode]
    unfold decodeRequest
    split
    · exact absurd rfl h4
    · exact absurd rfl h2
    · rfl
  · rw [decode]
    unfold decodeResponse
    split
    · exact absurd rfl h4
    · exact absurd rfl h2
    · rfl

theorem decode_response4 (shape : Shape) (g : Byte) (d : U24) :
    decode shape (.response [g, d.extractLsb' 16 8, d.extractLsb' 8 8, d.extractLsb' 0 8]) = .ok (.fResponse4 g d) := by
  simp only [decode, decodeResponse, payload_of_bytes]

/-- Settles O4: each word is a layout of the tables at these fields, and the decoder reads those layouts. -/
theorem writtenOutWordsDecode : Obligations.WrittenOutWordsDecode :=
  ⟨fun shape => decode_write shape 0x05 0xABCDEF, fun shape => decode_read shape 0x33,
    fun shape => decode_readAndClear shape 0x3C 0xFFFFFF, decode_rom4 0x3F, decode_rom2 0x3F,
    fun shape => decode_response4 shape 0xA5 0x000001, rfl, fun shape => decode_command shape 0x0A { arg := 2 }⟩

/-- Settles O5: each clause is one refusal of the decoder. -/
theorem otherEncodingsAreRefused : Obligations.OtherEncodingsAreRefused := by
  have rom {header : Byte} (h : header.extractLsb' 6 2 = 3) : opOf header = .deviceInfo := (opOf_eq_iff _ _).mpr h
  have nonzero {n : Nat} {p : BitVec n} (hp : p ≠ 0) : (p == 0) = false := beq_eq_false_iff_ne.mpr hp
  refine ⟨fun shape code ops h => ?_, fun shape bytes h4 h2 => decode_frame_length h4 h2 shape, ?_, ?_, fun _ _ => rfl, ?_, ?_⟩
  · exact if_neg (Nat.not_lt.mpr h)
  · exact fun shape header dummy h => decode_request_twoByteNotRom (fun hop => h ((opOf_eq_iff _ _).mp hop)) shape dummy
  · exact fun header b1 b2 b3 h => decode_request_romLength (rom h) b1 b2 b3
  · rintro shape header b1 b2 b3 hp (h | ⟨h, rfl⟩)
    · rw [decode_request_read ((opOf_eq_iff _ _).mpr h), dummyPayloadOk, nonzero hp]
      rfl
    · rw [decode_request_rom4 (rom h), dummyPayloadOk, nonzero hp]
      rfl
  · intro header dummy h hd
    rw [decode_request_rom2 (rom h), dummyByteOk, nonzero hd]
    rfl

end Sys2Proof.Machine

/-! ### The frame forms row by row: decoding and encoding agree (R52–R58, R67) -/

namespace Sys2Proof.Machine

/-- The frames a ROM shape has, with the instruction each stands for: the rows of the encoding tables (R52, R53, R56, R57), a ROM
request and a 2-byte response at the length CFG.ROM_SHAPE gives them (R58). -/
inductive FrameForm : Shape → Presented → Instr → Prop
  | write {shape : Shape} (a : Addr) (p : U24) : FrameForm shape (.request (wire 0 a p)) (.fWrite a p)
  | read {shape : Shape} (a : Addr) : FrameForm shape (.request (wire 1 a 0)) (.fRead a 0)
  | readAndClear {shape : Shape} (a : Addr) (p : U24) : FrameForm shape (.request (wire 2 a p)) (.fReadAndClear a p)
  | rom4 (a : Addr) : FrameForm .four (.request (wire 3 a 0)) (.fDeviceInfo a 0)
  | rom2 (a : Addr) : FrameForm .two (.request (wireRom2 a)) (.fDeviceInfo2 a 0)
  | response4 {shape : Shape} (g : Byte) (d : U24) :
    FrameForm shape (.response [g, d.extractLsb' 16 8, d.extractLsb' 8 8, d.extractLsb' 0 8]) (.fResponse4 g d)
  | response2 (g d : Byte) : FrameForm .two (.response [g, d]) (.fResponse2 g d)

/-- The block's 4-byte request is the field layout of its kind, address and payload (R52, R72). -/
theorem buildFrame4_eq_wire (op : Op) (a : Addr) (v : U32) :
    buildFrame4 op (a.setWidth 32) v = wire ((opBits op).extractLsb' 6 2) a (v.setWidth 24) := by
  simp only [buildFrame4, wire, packPayload, header_of_addr, low_byte_of_truncated, Nat.reduceAdd, Nat.reduceLeDiff]

/-- A payload is carried through a register value whole (R34). -/
theorem setWidth_32_24 (p : U24) : (p.setWidth 32).setWidth 24 = p := by
  rw [BitVec.setWidth_setWidth_of_le _ (by decide), BitVec.setWidth_eq]

theorem encodeRequest4_eq_wire (op : Op) (a : Addr) (p : U24) :
    encodeRequest4 op a p = .request (wire ((opBits op).extractLsb' 6 2) a p) := by
  rw [encodeRequest4, buildFrame4_eq_wire, setWidth_32_24]

variable {shape : Shape} {p : Presented} {i : Instr}

theorem FrameForm.decode_eq (h : FrameForm shape p i) : decode shape p = .ok i := by
  cases h with
  | write a p => exact decode_write shape a p
  | read a => exact decode_read shape a
  | readAndClear a p => exact decode_readAndClear shape a p
  | rom4 a => exact decode_rom4 a
  | rom2 a => exact decode_rom2 a
  | response4 g d => exact decode_response4 shape g d
  | response2 g d => rfl

theorem FrameForm.encode_eq (h : FrameForm shape p i) : encode i = p := by
  cases h with
  | write a p => exact encodeRequest4_eq_wire .write a p
  | read a => exact encodeRequest4_eq_wire .read a 0
  | readAndClear a p => exact encodeRequest4_eq_wire .readAndClear a p
  | rom4 a => exact encodeRequest4_eq_wire .deviceInfo a 0
  | rom2 a => rw [encode, header_deviceInfo, wireRom2]
  | response4 g d => rfl
  | response2 g d => rfl

theorem FrameForm.wellFormed_fits (h : FrameForm shape p i) : i.wellFormed = true ∧ i.fits shape = true := by
  cases h <;> exact ⟨rfl, rfl⟩

/-- Every well-formed frame form that a shape has is a row of the tables. -/
theorem exists_frameForm (hi : isFrame i = true) (hw : i.wellFormed = true) (hs : i.fits shape = true) :
    ∃ p, FrameForm shape p i := by
  cases i with
  | fWrite a p => exact ⟨_, .write a p⟩
  | fRead a p =>
    obtain rfl : p = 0 := beq_iff_eq.mp hw
    exact ⟨_, .read a⟩
  | fReadAndClear a p => exact ⟨_, .readAndClear a p⟩
  | fDeviceInfo a p =>
    obtain rfl : p = 0 := beq_iff_eq.mp hw
    obtain rfl : shape = .four := beq_iff_eq.mp hs
    exact ⟨_, .rom4 a⟩
  | fDeviceInfo2 a d =>
    obtain rfl : d = 0 := beq_iff_eq.mp hw
    obtain rfl : shape = .two := beq_iff_eq.mp hs
    exact ⟨_, .rom2 a⟩
  | fResponse4 g d => exact ⟨_, .response4 g d⟩
  | fResponse2 g d =>
    obtain rfl : shape = .two := beq_iff_eq.mp hs
    exact ⟨_, .response2 g d⟩
  | write | read | modify | rac | racList | readRom | isWritable | getGsb | wdCheck | wdRefresh | wdSetInterval | wdEnable
  | wdDisable | modeSet | maintain | readAvg | reserved => cases hi

/-- Settles O1: a command is read back by its code, a frame form by its row of the tables. -/
theorem decodeOfEncodeIsTheInstruction : Obligations.DecodeOfEncodeIsTheInstruction := by
  intro shape i hw hs
  cases i with
  | write | read | modify | rac | racList | readRom | isWritable | getGsb | wdCheck | wdRefresh | wdSetInterval | wdEnable
  | wdDisable | modeSet | maintain | readAvg => rfl
  | reserved code => rw [encode, decode_command, decodeCommand_reserved (of_decide_eq_true hw)]
  | fWrite | fRead | fReadAndClear | fDeviceInfo | fDeviceInfo2 | fResponse4 | fResponse2 =>
    obtain ⟨p, h⟩ := exists_frameForm rfl hw hs
    rw [h.encode_eq, h.decode_eq]

/-- A header byte is its kind above its address (R52). -/
theorem header_eq_append {b : Byte} {op : Op} (hop : opOf b = op) : (opBits op).extractLsb' 6 2 ++ b.setWidth 6 = b := by
  subst hop
  revert b
  decide

/-- The three bytes of a payload, side by side and apart again. -/
theorem bytes_of_payload (b1 b2 b3 : Byte) :
    (b1 ++ b2 ++ b3).extractLsb' 16 8 = b1 ∧ (b1 ++ b2 ++ b3).extractLsb' 8 8 = b2 ∧ (b1 ++ b2 ++ b3).extractLsb' 0 8 = b3 := by
  refine ⟨?_, ?_, BitVec.extractLsb'_append_eq_right⟩
  · rw [BitVec.extractLsb'_append_eq_of_le (by decide)]
    exact BitVec.extractLsb'_append_eq_left
  · rw [BitVec.extractLsb'_append_eq_of_le (by decide)]
    exact BitVec.extractLsb'_append_eq_right

/-- Any four bytes are a request of the kind that their header names (R52). -/
theorem bytes_eq_wire {b0 : Byte} {op : Op} (hop : opOf b0 = op) (b1 b2 b3 : Byte) :
    [b0, b1, b2, b3] = wire ((opBits op).extractLsb' 6 2) (b0.setWidth 6) (b1 ++ b2 ++ b3) := by
  obtain ⟨h1, h2, h3⟩ := bytes_of_payload b1 b2 b3
  rw [wire, header_eq_append hop, h1, h2, h3]

/-- What four request bytes decode to stands in their row (R52). -/
theorem frameForm_of_decode_request4 {b0 b1 b2 b3 : Byte} (h : decode shape (.request [b0, b1, b2, b3]) = .ok i) :
    FrameForm shape (.request [b0, b1, b2, b3]) i := by
  cases hop : opOf b0 with
  | write =>
    rw [bytes_eq_wire hop] at h ⊢
    cases (decode_write shape _ _).symm.trans h
    exact .write _ _
  | readAndClear =>
    rw [bytes_eq_wire hop] at h ⊢
    cases (decode_readAndClear shape _ _).symm.trans h
    exact .readAndClear _ _
  | read =>
    obtain ⟨hp, rfl⟩ := withDummy_eq_ok ((decode_request_read hop shape b1 b2 b3).symm.trans h)
    rw [bytes_eq_wire hop, beq_iff_eq.mp hp]
    exact .read _
  | deviceInfo =>
    cases shape with
    | four =>
      obtain ⟨hp, rfl⟩ := withDummy_eq_ok ((decode_request_rom4 hop b1 b2 b3).symm.trans h)
      rw [bytes_eq_wire hop, beq_iff_eq.mp hp]
      exact .rom4 _
    | two => cases (decode_request_romLength hop b1 b2 b3).1.symm.trans h

/-- What two request bytes decode to is the ROM request of the TWO shape (R56). -/
theorem frameForm_of_decode_request2 {b0 b1 : Byte} (h : decode shape (.request [b0, b1]) = .ok i) :
    FrameForm shape (.request [b0, b1]) i := by
  by_cases hop : opOf b0 = .deviceInfo
  · cases shape with
    | four => cases (decode_request_romLength hop b1 0 0).2.symm.trans h
    | two =>
      obtain ⟨hd, rfl⟩ := withDummy_eq_ok ((decode_request_rom2 hop b1).symm.trans h)
      have hrom : [b0, b1] = wireRom2 (b0.setWidth 6) := by
        rw [wireRom2, beq_iff_eq.mp hd]
        exact congrArg (· :: _) (header_eq_append hop).symm
      rw [hrom, beq_iff_eq.mp hd]
      exact .rom2 _
  · cases (decode_request_twoByteNotRom hop shape b1).symm.trans h

theorem frameForm_of_decode_request {bytes : List Byte} (h : decode shape (.request bytes) = .ok i) :
    FrameForm shape (.request bytes) i := by
  rw [decode] at h
  unfold decodeRequest at h
  split at h
  · exact frameForm_of_decode_request4 h
  · exact frameForm_of_decode_request2 h
  · cases h

theorem frameForm_of_decode_response {bytes : List Byte} (h : decode shape (.response bytes) = .ok i) :
    FrameForm shape (.response bytes) i := by
  rw [decode] at h
  unfold decodeResponse at h
  split at h
  · rename_i b0 b1 b2 b3
    cases h
    obtain ⟨h1, h2, h3⟩ := bytes_of_payload b1 b2 b3
    simpa only [h1, h2, h3] using FrameForm.response4 (shape := shape) b0 (b1 ++ b2 ++ b3)
  · cases shape with
    | two =>
      cases h
      exact .response2 _ _
    | four => cases h
  · cases h

/-- Settles O2: what a frame decodes to stands in its row, and the row gives the bytes back. -/
theorem encodeOfDecodedFrameIsTheFrame : Obligations.EncodeOfDecodedFrameIsTheFrame :=
  fun _ _ _ => ⟨fun h => (frameForm_of_decode_request h).encode_eq, fun h => (frameForm_of_decode_response h).encode_eq⟩

/-- Settles O3: a command has a code of its own or a reserved one, and a frame stands in its row. -/
theorem decodedInstructionsAreWellFormed : Obligations.DecodedInstructionsAreWellFormed := by
  intro shape p i h
  cases p with
  | command code ops =>
    rw [decode_command_eq_ok h]
    exact decodeCommand_wellFormed_fits shape _ ops
  | request bytes => exact (frameForm_of_decode_request h).wellFormed_fits
  | response bytes => exact (frameForm_of_decode_response h).wellFormed_fits

end Sys2Proof.Machine

/-! ### The layout of a request's frame word (R36, R52, R56, R58) -/

namespace Sys2Proof.Machine

/-- Bits side by side, as a number. -/
theorem toNat_append_eq_add {m n : Nat} (x : BitVec m) (y : BitVec n) : (x ++ y).toNat = x.toNat * 2 ^ n + y.toNat := by
  rw [BitVec.toNat_append, ← Nat.shiftLeft_add_eq_or_of_lt y.isLt, Nat.shiftLeft_eq]

/-- A header byte above one byte, or above three, is their frame word (R36). -/
theorem frameWord_two (b0 b1 : Byte) : frameWord [b0, b1] = (b0 ++ b1).toNat := by
  simp only [frameWord, List.foldl_cons, List.foldl_nil, toNat_append_eq_add]
  omega

theorem frameWord_four (b0 b1 b2 b3 : Byte) : frameWord [b0, b1, b2, b3] = (b0 ++ (b1 ++ b2 ++ b3)).toNat := by
  simp only [frameWord, List.foldl_cons, List.foldl_nil, toNat_append_eq_add]
  omega

/-- The frame word of a 4-byte request is its three fields (R52). -/
theorem frameWord_wire (op : BitVec 2) (a : Addr) (p : U24) : frameWord (wire op a p) = (op ++ a ++ p).toNat := by
  rw [wire, frameWord_four, payload_of_bytes]

/-- The frame word of the 2-byte ROM request (R56). -/
theorem frameWord_wireRom2 (a : Addr) : frameWord (wireRom2 a) = (3#2 ++ a ++ 0#8).toNat :=
  frameWord_two _ _

/-- Either a request is the 2-byte ROM request, or its 4-byte layout; the shape and the kind fix which (R52, R56, R58). -/
theorem requestFrame_cases (shape : Shape) (op : Op) (a : Addr) (v : U32) :
    (exchangeLength shape op = 2 ∧ requestFrame shape op a v = wireRom2 a)
      ∨ (exchangeLength shape op = 4
        ∧ requestFrame shape op a v = wire ((opBits op).extractLsb' 6 2) a (v.setWidth 24)) := by
  by_cases h : op = .deviceInfo ∧ shape = .two
  · obtain ⟨rfl, rfl⟩ := h
    exact .inl ⟨rfl, requestFrame_rom2 a v⟩
  · rw [exchangeLength, requestFrame, if_neg h, if_neg h, buildFrame4_eq_wire]
    exact .inr ⟨rfl, rfl⟩

/-- Settles O8: a request is one of two layouts, and each has its frame word. -/
theorem requestFramesHaveTheirLayout : Obligations.RequestFramesHaveTheirLayout := by
  intro shape op a v
  rcases requestFrame_cases shape op a v with ⟨hlen, hframe⟩ | ⟨hlen, hframe⟩ <;> rw [hlen, hframe]
  · exact ⟨rfl, nofun, fun _ => frameWord_wireRom2 a⟩
  · refine ⟨rfl, fun _ => ?_, nofun⟩
    rw [frameWord_wire, BitVec.setWidth_eq_extractLsb' (by decide)]

end Sys2Proof.Machine

/-! ### The register commands of one transaction, and the request forms run by themselves (R78–R84, log 9) -/

namespace Sys2Proof.Machine

variable {s : State} {b0 b1 b2 b3 : Byte}

/-- The ROM read in the FOUR shape, answered Ok (R78). -/
theorem xfer_rom4_replied {a : Addr} (h : s.env.abandonAfter = none) (hshape : s.cfg.romShape = .four)
    (ha : deviceAnswer (wire 3 a 0) s = .ok b0 b1 b2 b3) :
    xfer .deviceInfo a 0 s = .run (payload b1 b2 b3) (replied4 (wire 3 a 0) b0 b1 b2 b3 s) := by
  rw [xfer, hshape, requestFrame_rom4]
  exact transact_replied4 h rfl ha

/-- The ROM read in the TWO shape, answered Ok (R56, R78). -/
theorem xfer_rom2_replied {a : Addr} (h : s.env.abandonAfter = none) (hshape : s.cfg.romShape = .two)
    (ha : deviceAnswer (wireRom2 a) s = .ok b0 b1 b2 b3) :
    xfer .deviceInfo a 0 s = .run (b1.setWidth 32) (replied2 (wireRom2 a) b0 b1 s) := by
  rw [xfer, hshape, requestFrame_rom2, transact_replied2 h rfl ha]

/-- A command whose body is one 4-byte exchange answered Ok. -/
theorem runCommand_replied4 {body : State → Seq (U32 × Bool)} {tx : List Byte} {d : U32} {f : Bool} (hf : s.faulted = false)
    (hb : body (s.setBusy true) = .run (d, f) (replied4 tx b0 b1 b2 b3 (s.setBusy true))) :
    runCommand body s = completed .ok d f (replied4 tx b0 b1 b2 b3 s) := by
  rw [runCommand_run hf hb, replied4_setBusy, completed_setBusy]

/-- Settles O13: the body is one WRITE behind its check. -/
theorem writeSendsItsFrame : Obligations.WriteSendsItsFrame := by
  intro reg data s b0 b1 b2 b3 ⟨hf, ha⟩ hw hq
  refine congrArg _ (runCommand_replied4 hf ?_)
  rw [writeSeq_replied (s := s.setBusy true) ha hw hq, andThen_run]

/-- Settles O14: the body is one READ. -/
theorem readReturnsThePayload : Obligations.ReadReturnsThePayload := by
  intro reg s b0 b1 b2 b3 ⟨hf, ha⟩ hq
  refine congrArg _ (runCommand_replied4 hf ?_)
  rw [xfer_read_replied (s := s.setBusy true) ha hq, andThen_run]

/-- Settles O17: the body is one READ_AND_CLEAR. -/
theorem racSendsTheMaskAndReturnsThePayload : Obligations.RacSendsTheMaskAndReturnsThePayload := by
  intro reg mask s b0 b1 b2 b3 ⟨hf, ha⟩ hq
  refine congrArg _ (runCommand_replied4 hf ?_)
  rw [xfer_rac_replied (s := s.setBusy true) ha hq, andThen_run]

/-- The first and the last byte of a payload (R53). -/
theorem outer_bytes_of_payload (b1 b2 b3 : Byte) :
    (payload b1 b2 b3).extractLsb' 16 8 = b1 ∧ (payload b1 b2 b3).extractLsb' 0 8 = b3 := by
  obtain ⟨h1, -, h3⟩ := bytes_of_payload b1 b2 b3
  rw [payload, BitVec.extractLsb'_setWidth_of_le (by decide), BitVec.extractLsb'_setWidth_of_le (by decide)]
  exact ⟨h1, h3⟩

/-- READ_ROM in the FOUR shape, answered Ok: it returns the configured byte of the payload (R84). -/
theorem exec_readRom_four {a : Addr} (hr : ready s) (hshape : s.cfg.romShape = .four)
    (hq : deviceAnswer (wire 3 a 0) s = .ok b0 b1 b2 b3) :
    exec (.readRom a) s
      = .next (completed .ok ((romByte s.cfg (payload b1 b2 b3)).setWidth 32) false (replied4 (wire 3 a 0) b0 b1 b2 b3 s)) := by
  obtain ⟨hf, ha⟩ := hr
  refine congrArg _ (runCommand_replied4 hf ?_)
  rw [xfer_rom4_replied (s := s.setBusy true) ha hshape hq, andThen_run]
  rfl

/-- Settles O19: the body is one ROM read of the configured shape, and its byte is R84's. -/
theorem readRomReturnsTheConfiguredByte : Obligations.ReadRomReturnsTheConfiguredByte := by
  intro a s b0 b1 b2 b3 hr
  obtain ⟨hfirst, hlast⟩ := outer_bytes_of_payload b1 b2 b3
  refine ⟨fun hshape hq => ?_, fun hshape hbyte hq => ?_, fun hshape hbyte hq => ?_⟩
  · obtain ⟨hf, ha⟩ := hr
    rw [← completed_setBusy _ _ _ true, ← replied2_setBusy]
    refine congrArg _ (runCommand_run hf ?_)
    have hbyte : romByte s.cfg (b1.setWidth 32) = b1 := by
      rw [romByte, hshape, BitVec.extractLsb'_setWidth_of_le (by decide), BitVec.extractLsb'_eq_self]
    rw [xfer_rom2_replied (s := s.setBusy true) ha hshape hq, andThen_run]
    exact congrArg (fun b : Byte => Seq.run (b.setWidth 32, false) _) hbyte
  · rw [exec_readRom_four hr hshape hq, romByte, hshape, hbyte, hlast]
  · rw [exec_readRom_four hr hshape hq, romByte, hshape, hbyte, hfirst]

/-- A request frame run by itself ends idle, in the state of its exchange (log 9). -/
theorem runFrame_run {body : State → Seq U32} {d : U32} {t : State} (hf : s.faulted = false) (hidle : t.cur.busy = false)
    (hb : body (s.setBusy true) = .run d (t.setBusy true)) : runFrame body s = t := by
  have hback : (t.setBusy true).setBusy false = t := by
    rw [← hidle]
    rfl
  rw [runFrame, hf, hb]
  exact hback

/-- A request frame that its check ends (log 9). -/
theorem runFrame_ended {body : State → Seq U32} {t : State} (hf : s.faulted = false)
    (hb : body (s.setBusy true) = .ended t) : runFrame body s = t := by
  rw [runFrame, hf, hb]
  rfl

/-- A request frame that is one 4-byte exchange answered Ok. -/
theorem runFrame_replied4 {body : State → Seq U32} {tx : List Byte} {d : U32} (hf : s.faulted = false)
    (hidle : s.cur.busy = false) (hb : body (s.setBusy true) = .run d (replied4 tx b0 b1 b2 b3 (s.setBusy true))) :
    runFrame body s = replied4 tx b0 b1 b2 b3 s :=
  runFrame_run hf hidle (by rw [hb, replied4_setBusy])

/-- Settles O43: each form is one transaction as the block makes it, the WRITE form behind its check. -/
theorem requestFormsAreOneTransaction : Obligations.RequestFormsAreOneTransaction := by
  intro a p d s b0 b1 b2 b3 ⟨hf, ha⟩ hidle
  have hp := setWidth_32_24 p
  refine ⟨fun hw hq => ?_, fun he hw => ?_, fun hq => ?_, fun hq => ?_, fun hshape hq => ?_, fun hshape hq => ?_⟩
  · rw [← hp] at hq
    have h := writeSeq_replied (s := s.setBusy true) ha hw hq
    rw [hp] at h
    exact congrArg Host.Outcome.next (runFrame_replied4 hf hidle h)
  · refine congrArg Host.Outcome.next (runFrame_ended hf ?_)
    rw [writeSeq_refused (s := s.setBusy true) he hw, completed_setBusy]
  · exact congrArg Host.Outcome.next (runFrame_replied4 hf hidle (xfer_read_replied (s := s.setBusy true) ha hq))
  · rw [← hp] at hq
    have h := xfer_rac_replied (s := s.setBusy true) ha hq
    rw [hp] at h
    exact congrArg Host.Outcome.next (runFrame_replied4 hf hidle h)
  · have h := runFrame_replied4 hf hidle (xfer_rom4_replied (s := s.setBusy true) ha hshape hq)
    exact ⟨congrArg Host.Outcome.next h, congrArg Host.Outcome.next h⟩
  · have h : runFrame (xfer .deviceInfo a 0) s = replied2 (wireRom2 a) b0 b1 s :=
      runFrame_run hf hidle (by rw [xfer_rom2_replied (s := s.setBusy true) ha hshape hq, replied2_setBusy])
    exact ⟨congrArg Host.Outcome.next h, congrArg Host.Outcome.next h⟩

end Sys2Proof.Machine

/-! ### The commands that issue no frame, and the refusals of operands (R61, R63, R85, R86, R97, R98) -/

namespace Sys2Proof.Machine

variable {s : State}

/-- An operand out of its range ends the command before anything else of its body (R63, R107). -/
theorem runCommand_outOfRange {arg : U32} {max : Nat} {k : Unit → State → Seq (U32 × Bool)} (hf : s.faulted = false)
    (h : max < arg.toNat) :
    runCommand (fun s => andThen (checkRange arg max s) k) s = completed .invalidSelector arg false s := by
  refine runCommand_ended hf ?_
  rw [checkRange_refuses h, andThen_ended, completed_setBusy]

/-- Settles O31: each of the three bodies starts with its range check. -/
theorem outOfRangeOperandsAreRefused : Obligations.OutOfRangeOperandsAreRefused :=
  fun _ _ _ _ hf => ⟨fun h => congrArg _ (runCommand_outOfRange hf h), fun h => congrArg _ (runCommand_outOfRange hf h),
    fun h => congrArg _ (runCommand_outOfRange hf h)⟩

/-- A command that only sets WD_RUN, FAULTED or not (R97, R98, R111). -/
theorem runCommand_setRun (s : State) (b : Bool) :
    ∃ status run, runCommand (fun s => .run (0, false) (s.setRun b)) s = completed status 0 false (s.setRun run) := by
  cases hf : s.faulted with
  | true => exact ⟨.faulted, s.wdRun, runCommand_faulted hf⟩
  | false => exact ⟨.ok, b, runCommand_run (t := (s.setRun b).setBusy true) hf rfl⟩

/-- A command without frames ends at once and writes nothing but WD_RUN and RES. -/
theorem exec_frameless {i : Instr} {s t : State} (hi : issuesNoFrame i = true) (he : exec i s = .next t) :
    ∃ status d f run, t = completed status d f (s.setRun run) := by
  cases i with
  | isWritable | getGsb | reserved => exact ⟨_, _, _, s.wdRun, (Host.Outcome.next.inj he).symm⟩
  | wdEnable | wdDisable =>
    obtain ⟨status, run, h⟩ := runCommand_setRun s _
    exact ⟨status, 0, false, run, (Host.Outcome.next.inj he).symm.trans h⟩
  | write | read | modify | rac | racList | readRom | wdCheck | wdRefresh | wdSetInterval | modeSet | maintain | readAvg
  | fWrite | fRead | fReadAndClear | fDeviceInfo | fDeviceInfo2 | fResponse4 | fResponse2 => cases hi

/-- Settles O54: the end of such a command writes nothing that the statement names but the result. -/
theorem framelessCommandsTouchNoPort : Obligations.FramelessCommandsTouchNoPort := by
  intro i s t hi he
  obtain ⟨status, d, f, run, rfl⟩ := exec_frameless hi he
  exact ⟨rfl, rfl, rfl, rfl, rfl, rfl, rfl, rfl, rfl⟩

end Sys2Proof.Machine

/-! ### The codec laws (R68–R72, R76) -/

namespace Sys2Proof.Machine

/-- Keeping the low bits of a word is masking the others off. -/
theorem setWidth_setWidth_eq_and {w k : Nat} (h : k ≤ w) (v : BitVec w) :
    (v.setWidth k).setWidth w = v &&& BitVec.ofNat w (2 ^ k - 1) := by
  have hmask : 2 ^ k - 1 < 2 ^ w :=
    (Nat.sub_one_lt (Nat.two_pow_pos k).ne').trans_le (Nat.pow_le_pow_right (by decide) h)
  apply BitVec.eq_of_toNat_eq
  rw [BitVec.toNat_setWidth_of_le h, BitVec.toNat_setWidth, BitVec.toNat_and, BitVec.toNat_ofNat, Nat.mod_eq_of_lt hmask,
    Nat.and_two_pow_sub_one_eq_mod]

/-- The header of any address value is the header of its low six bits (R69). -/
theorem encodeHeader_lowBits (op : Op) (a : U32) : encodeHeader op ((a.setWidth 6).setWidth 32) = encodeHeader op a := by
  have hmask : (a.setWidth 6).setWidth 32 = a &&& 0x3F := setWidth_setWidth_eq_and (by decide) a
  rw [encodeHeader, encodeHeader, hmask, BitVec.and_assoc, BitVec.and_self]

/-- The header of any address value is its OP above `a[5:0]` (R69). -/
theorem encodeHeader_eq_append (op : Op) (a : U32) :
    encodeHeader op a = (opBits op).extractLsb' 6 2 ++ a.extractLsb' 0 6 := by
  rw [← encodeHeader_lowBits, header_of_addr, BitVec.setWidth_eq_extractLsb' (by decide)]

theorem encodeHeader_op (op : Op) (a : U32) : (encodeHeader op a).extractLsb' 6 2 = (opBits op).extractLsb' 6 2 := by
  rw [encodeHeader_eq_append]
  exact BitVec.extractLsb'_append_eq_left

theorem encodeHeader_addr (op : Op) {a : U32} (ha : a.toNat < 64) : ((encodeHeader op a).extractLsb' 0 6).toNat = a.toNat := by
  have hlow : (encodeHeader op a).extractLsb' 0 6 = a.extractLsb' 0 6 := by
    rw [encodeHeader_eq_append]
    exact BitVec.extractLsb'_append_eq_right
  rw [hlow, BitVec.extractLsb'_toNat, Nat.shiftRight_zero, Nat.mod_eq_of_lt ha]

/-- The kind a header names is the one it was made with (R67, R69). -/
theorem opOf_encodeHeader (op : Op) (a : U32) : opOf (encodeHeader op a) = op :=
  (opOf_eq_iff _ op).mpr (encodeHeader_op op a)

/-- A header gives its operation and its six-bit address back (R76). -/
theorem encodeHeader_injective {op op' : Op} {a a' : U32} (ha : a.toNat < 64) (ha' : a'.toNat < 64)
    (h : encodeHeader op a = encodeHeader op' a') : op = op' ∧ a = a' := by
  have hop : op = op' := by rw [← opOf_encodeHeader op a, h, opOf_encodeHeader]
  have haddr : a.toNat = a'.toNat := by rw [← encodeHeader_addr op ha, h, encodeHeader_addr op' ha']
  exact ⟨hop, BitVec.eq_of_toNat_eq haddr⟩

/-- A value packed and unpacked is its bits 23:0 (R70, R71). -/
theorem unpackPayload_packPayload (v : U32) : unpackPayload (packPayload v) = (v.setWidth 24).setWidth 32 := by
  rw [unpackPayload, packPayload, ← low_byte_of_truncated v 16 (by decide), ← low_byte_of_truncated v 8 (by decide),
    ← low_byte_of_truncated v 0 (by decide), payload_of_bytes]

/-- Three bytes unpacked and packed are the three bytes (R70, R71). -/
theorem packPayload_unpackPayload (b : Byte × Byte × Byte) : packPayload (unpackPayload b) = b := by
  obtain ⟨b1, b2, b3⟩ := b
  obtain ⟨h1, h2, h3⟩ := bytes_of_payload b1 b2 b3
  rw [packPayload, unpackPayload, BitVec.extractLsb'_setWidth_of_le (by decide), BitVec.extractLsb'_setWidth_of_le (by decide),
    BitVec.extractLsb'_setWidth_of_le (by decide), h1, h2, h3]

/-- Settles O6: packing keeps bits 23:0, and a header holds its operation and its address side by side. -/
theorem codecLawsHold : Obligations.CodecLawsHold := by
  refine ⟨fun v hv => ?_, fun v => ?_, packPayload_unpackPayload, fun op a ha => ⟨encodeHeader_op op a, encodeHeader_addr op ha⟩,
    fun _ _ _ _ => encodeHeader_injective⟩
  · rw [unpackPayload_packPayload]
    exact BitVec.setWidth_setWidth_eq_self hv
  · rw [unpackPayload_packPayload, setWidth_24_32]

/-- Settles O7: the header of any address value is its OP above `a[5:0]`, and the four OPs are R54's. -/
theorem headerHoldsOpAndLowAddressBits : Obligations.HeaderHoldsOpAndLowAddressBits :=
  fun a => ⟨encodeHeader_eq_append .write a, encodeHeader_eq_append .read a, encodeHeader_eq_append .readAndClear a,
    encodeHeader_eq_append .deviceInfo a⟩

end Sys2Proof.Machine

/-! ### GET_GSB, and the register commands of more than one transaction (R78, R81, R83, R86) -/

namespace Sys2Proof.Machine

variable {s t : State} {b0 b1 b2 b3 c0 c1 c2 c3 : Byte} {a : Addr} {mask data : U32}

/-- A command whose body runs to its end in `t`, which is then no longer busy. -/
theorem runCommand_runs {body : State → Seq (U32 × Bool)} {d : U32} {f : Bool} (hf : s.faulted = false)
    (hb : body (s.setBusy true) = .run (d, f) (t.setBusy true)) : runCommand body s = completed .ok d f t := by
  rw [runCommand_run hf hb, completed_setBusy]

/-- A command that ends at a failed frame of the first piece of its body (R108). -/
theorem runCommand_failed {α : Type} {m : State → Seq α} {k : α → State → Seq (U32 × Bool)} {tx : List Byte} {h : Byte}
    (hf : s.faulted = false) (hm : m (s.setBusy true) = .ended (failed tx h (t.setBusy true))) :
    runCommand (fun s => andThen (m s) k) s = failed tx h t := by
  refine runCommand_ended hf ?_
  rw [hm, andThen_ended, failed_setBusy]

/-- Settles O11: the command answers `gsbData`, which GSB_VALID decides. -/
theorem getGsbAnswersTheCachedByte : Obligations.GetGsbAnswersTheCachedByte := by
  intro s
  have hexec : exec .getGsb s = .next (completed .ok (gsbData s) s.gsbValid s) := rfl
  constructor
  · intro h
    rw [hexec, gsbData, h, if_pos rfl]
  · intro h
    rw [hexec, gsbData, h, if_neg Bool.false_ne_true]

/-- A MODIFY sequence of a busy block, answered Ok as from the state that is not (R81). -/
theorem modifySeq_busy_rewritten (h : s.env.abandonAfter = none) (hw : s.cfg.enforceWritable = true → writable a = true)
    (hq : rewriteAnswered a (merged mask data (payload b1 b2 b3)) b0 b1 b2 b3 c0 c1 c2 c3 s) :
    modifySeq a mask data (s.setBusy true)
      = .run () ((rewritten a (merged mask data (payload b1 b2 b3)) b0 b1 b2 b3 c0 c1 c2 c3 s).setBusy true) := by
  rw [modifySeq_rewritten (s := s.setBusy true) h hw ((rewriteAnswered_setBusy ..).mpr hq), rewritten_setBusy]

/-- Settles O15: behind the check, the body is one frame pair with the merge between. -/
theorem modifyReadsMergesAndWrites : Obligations.ModifyReadsMergesAndWrites := by
  intro reg mask data s b0 b1 b2 b3 c0 c1 c2 c3 ⟨hf, ha⟩ hw hq
  refine congrArg _ (runCommand_runs hf ?_)
  rw [modifySeq_busy_rewritten ha hw hq, andThen_run]

/-- A frame pair whose READ fails sends no WRITE (R81, R108). -/
theorem readThenWrite_read_failed {f : U32 → U32} (h : s.env.abandonAfter = none)
    (hq : deviceAnswer (wire 1 a 0) s = .fail) :
    readThenWrite a f s = .ended (failed (wire 1 a 0) (1#2 ++ a) s) := by
  rw [readThenWrite, xfer_read_failed h hq, andThen_ended]

/-- A frame pair whose WRITE fails: the READ's answer is cached, and CUR.tmp keeps the value that was to be written. -/
theorem readThenWrite_write_failed {f : U32 → U32} (h : s.env.abandonAfter = none)
    (hr : deviceAnswer (wire 1 a 0) s = .ok b0 b1 b2 b3)
    (hq : deviceAnswer (wire 0 a ((f (payload b1 b2 b3)).setWidth 24)) (replied4 (wire 1 a 0) b0 b1 b2 b3 s) = .fail) :
    readThenWrite a f s
      = .ended (failed (wire 0 a ((f (payload b1 b2 b3)).setWidth 24)) (0#2 ++ a)
          ((replied4 (wire 1 a 0) b0 b1 b2 b3 s).setTmp (f (payload b1 b2 b3)))) := by
  rw [readThenWrite, xfer_read_replied h hr, andThen_run, xfer_write_failed (by simpa using h) (by simpa using hq), andThen_ended]

/-- Behind its check a MODIFY sequence is the frame pair with the merge between (R81, R87). -/
theorem modifySeq_passes (hw : s.cfg.enforceWritable = true → writable a = true) :
    modifySeq a mask data s = readThenWrite a (merged mask data) s := by
  rw [modifySeq, checkWritable_passes hw, andThen_run]
  rfl

theorem modifySeq_read_failed (h : s.env.abandonAfter = none) (hw : s.cfg.enforceWritable = true → writable a = true)
    (hq : deviceAnswer (wire 1 a 0) s = .fail) :
    modifySeq a mask data s = .ended (failed (wire 1 a 0) (1#2 ++ a) s) := by
  rw [modifySeq_passes hw, readThenWrite_read_failed h hq]

/-- Settles O16: the body is a frame pair, and each of its frames can be the one that fails. -/
theorem modifyStopsAtItsFailedFrame : Obligations.ModifyStopsAtItsFailedFrame := by
  intro reg mask data s ⟨hf, ha⟩ hw
  refine ⟨fun hq => ?_, fun b0 b1 b2 b3 hr hq => ?_⟩
  · exact congrArg _ (runCommand_failed hf (modifySeq_read_failed (s := s.setBusy true) ha hw hq))
  · refine congrArg _ (runCommand_failed hf ?_)
    rw [modifySeq_passes (s := s.setBusy true) hw,
      readThenWrite_write_failed (s := s.setBusy true) ha hr (by simpa using hq), replied4_setBusy]
    rfl

/-- The first entry of a list answered Ok is answered Ok, and the rest is answered from where its exchange ends. -/
theorem racReplied_cons {reg : Addr} {rest : List (Addr × U32)} (h : racReplied ((reg, mask) :: rest) s = some t) :
    ∃ b0 b1 b2 b3, deviceAnswer (wire 2 reg (mask.setWidth 24)) s = .ok b0 b1 b2 b3
      ∧ racReplied rest (replied4 (wire 2 reg (mask.setWidth 24)) b0 b1 b2 b3 s) = some t := by
  rw [racReplied] at h
  split at h
  case h_1 b0 b1 b2 b3 hq => exact ⟨b0, b1, b2, b3, hq, h⟩
  case h_2 => cases h

/-- The frames of RAC_LIST of a busy block, each answered Ok as from the state that is not (R83). -/
theorem racFrames_replied {list : List (Addr × U32)} (h : s.env.abandonAfter = none) (hq : racReplied list s = some t) :
    racFrames list (s.setBusy true) = .run () (t.setBusy true) := by
  induction list generalizing s with
  | nil =>
    obtain rfl : s = t := Option.some.inj hq
    rfl
  | cons entry rest ih =>
    obtain ⟨reg, mask⟩ := entry
    obtain ⟨b0, b1, b2, b3, hfirst, hrest⟩ := racReplied_cons hq
    rw [racFrames, xfer_rac_replied (s := s.setBusy true) h hfirst, andThen_run, replied4_setBusy]
    exact ih (by simpa using h) hrest

/-- Settles O18, by induction on the list. -/
theorem racListSendsOneFramePerEntry : Obligations.RacListSendsOneFramePerEntry := by
  intro list s t ⟨hf, ha⟩ hq
  refine congrArg _ (runCommand_runs hf ?_)
  rw [racFrames_replied ha hq, andThen_run]

end Sys2Proof.Machine

/-! ### The settings of the watchdog controller (R63, R96, R99) -/

namespace Sys2Proof.Machine

variable {s t : State} {b0 b1 b2 b3 c0 c1 c2 c3 : Byte} {arg : U32}

/-- An operand in its range leaves the rest of the body (R63). -/
theorem runCommand_inRange {max : Nat} {k : Unit → State → Seq (U32 × Bool)} (h : arg.toNat ≤ max) (s : State) :
    runCommand (fun s => andThen (checkRange arg max s) k) s = runCommand (k ()) s := by
  simp only [checkRange_passes h, andThen_run]

/-- An interval code in its range is its two low bits (R96). -/
theorem intervalCode_setWidth (h : arg.toNat ≤ 3) : (intervalCode arg).setWidth 32 = arg :=
  BitVec.setWidth_setWidth_eq_self (Nat.lt_succ_of_le h)

theorem selectorValue_eq (c : Cfg) (h : arg.toNat ≤ 3) : selectorValue c arg = arg <<< c.wdSelPos.toNat := by
  rw [selectorValue, intervalCode_setWidth h]

theorem intervalOf_eq (c : Cfg) (arg : U32) : intervalOf c arg = tableGet c.wdIntervalMs (BitVec.ofNat 2 arg.toNat) := by
  rw [intervalOf, intervalCode, BitVec.ofNat_toNat]

/-- The frames of WD_SET_INTERVAL, all four answered Ok (R96). -/
theorem intervalFrames_rewritten {d0 d1 d2 d3 e0 e1 e2 e3 : Byte} {u : State} (h : s.env.abandonAfter = none)
    (hcfg : cfgOk s.cfg = true) (harg : arg.toNat ≤ 3)
    (hq : rewriteAnswered 0x3F (merged s.cfg.wdCfgEnMask s.cfg.wdCfgEnMask (payload b1 b2 b3)) b0 b1 b2 b3 c0 c1 c2 c3 s)
    (hu : u = rewritten 0x3F (merged s.cfg.wdCfgEnMask s.cfg.wdCfgEnMask (payload b1 b2 b3)) b0 b1 b2 b3 c0 c1 c2 c3 s)
    (hq' : rewriteAnswered s.cfg.wdSelReg
      (merged s.cfg.wdSelMask (arg <<< s.cfg.wdSelPos.toNat) (payload d1 d2 d3)) d0 d1 d2 d3 e0 e1 e2 e3 u) :
    intervalFrames arg (s.setBusy true) = .run ()
      ((rewritten s.cfg.wdSelReg (merged s.cfg.wdSelMask (arg <<< s.cfg.wdSelPos.toNat) (payload d1 d2 d3))
        d0 d1 d2 d3 e0 e1 e2 e3 u).setBusy true) := by
  obtain ⟨-, hsel, -, hconfig⟩ := cfgOk_writable hcfg
  have hua : u.env.abandonAfter = none := by rw [hu, rewritten_abandonAfter, h]
  have huc : u.cfg = s.cfg := by rw [hu, rewritten_cfg]
  have hfirst : modifySeq configAddr s.cfg.wdCfgEnMask s.cfg.wdCfgEnMask (s.setBusy true) = .run () (u.setBusy true) := by
    rw [hu]
    exact modifySeq_busy_rewritten h (fun _ => hconfig) hq
  rw [intervalFrames, setBusy_cfg, hfirst, andThen_run, setBusy_cfg, huc, selectorValue_eq s.cfg harg,
    modifySeq_busy_rewritten hua (fun _ => hsel) hq']

/-- The clock sample does not see WD_INTERVAL. -/
theorem sampled_setInterval (v : U32) (s : State) : sampled (s.setInterval v) = (sampled s).setInterval v := by
  simp only [sampled, takeSample_env_congr (s := s.setInterval v) (t := s) rfl]
  rfl

theorem clockSample_setInterval (v : U32) (s : State) : clockSample (s.setInterval v) = clockSample s :=
  (takeSample_env_congr rfl).2

/-- Settles O22: two frame pairs at writable registers, then the table's entry and a clock sample. -/
theorem wdSetIntervalProgramsAndRestarts : Obligations.WdSetIntervalProgramsAndRestarts := by
  intro arg s u v b0 b1 b2 b3 c0 c1 c2 c3 d0 d1 d2 d3 e0 e1 e2 e3 ⟨hf, ha⟩ harg hcfg hq hu hq' hv
  have hva : v.env.abandonAfter = none := by rw [hv, rewritten_abandonAfter, hu, rewritten_abandonAfter, ha]
  have hvc : v.cfg = s.cfg := by rw [hv, rewritten_cfg, hu, rewritten_cfg]
  refine congrArg _ ((runCommand_inRange harg s).trans (runCommand_runs hf ?_))
  rw [intervalFrames_rewritten ha hcfg harg hq hu hq', ← hv, andThen_run, setBusy_cfg, hvc, intervalOf_eq,
    sampleNow_ready (s := (v.setBusy true).setInterval _) hva, andThen_run, sampled_setInterval, sampled_setBusy,
    clockSample_setInterval, clockSample_setBusy]
  rfl

/-- MODE_SET with a mode in its range, both frames answered Ok (R99). -/
theorem exec_modeSet_rewritten (hr : ready s) (hcfg : cfgOk s.cfg = true) (harg : arg.toNat ≤ maxMode)
    (hq : rewriteAnswered s.cfg.modeReg (merged s.cfg.modeMask (modeValue s.cfg arg) (payload b1 b2 b3))
      b0 b1 b2 b3 c0 c1 c2 c3 s)
    (ht : t = rewritten s.cfg.modeReg (merged s.cfg.modeMask (modeValue s.cfg arg) (payload b1 b2 b3))
      b0 b1 b2 b3 c0 c1 c2 c3 s) :
    exec (.modeSet arg) s = .next (completed .ok 0 false (if isStandby arg then t.setRun false else t)) := by
  obtain ⟨hf, ha⟩ := hr
  obtain ⟨-, -, hmode, -⟩ := cfgOk_writable hcfg
  refine congrArg _ ((runCommand_inRange harg s).trans (runCommand_runs hf ?_))
  rw [setBusy_cfg, modifySeq_busy_rewritten ha (fun _ => hmode) hq, ← ht, andThen_run]
  cases isStandby arg <;> rfl

/-- Settles O24: the three modes of one command. -/
theorem modeSetWritesTheModeAndStopsForStandby : Obligations.ModeSetWritesTheModeAndStopsForStandby :=
  fun _ _ _ _ _ _ _ _ _ hr hcfg =>
    ⟨fun hq => exec_modeSet_rewritten (arg := 0) hr hcfg (by decide) hq rfl,
      fun hq => exec_modeSet_rewritten (arg := 1) hr hcfg (by decide) hq rfl,
      fun hq => exec_modeSet_rewritten (arg := 2) hr hcfg (by decide) hq rfl⟩

end Sys2Proof.Machine

/-! ### The failure of a command's first frame (R108) -/

namespace Sys2Proof.Machine

variable {s : State} {a : Addr}

/-- The ROM read in the FOUR shape, failed (R108). -/
theorem xfer_rom4_failed (h : s.env.abandonAfter = none) (hshape : s.cfg.romShape = .four)
    (hq : deviceAnswer (wire 3 a 0) s = .fail) :
    xfer .deviceInfo a 0 s = .ended (failed (wire 3 a 0) (3#2 ++ a) s) := by
  rw [xfer, hshape, requestFrame_rom4]
  exact transact_failed h hq

/-- The ROM read in the TWO shape, failed (R56, R108). -/
theorem xfer_rom2_failed (h : s.env.abandonAfter = none) (hshape : s.cfg.romShape = .two)
    (hq : deviceAnswer (wireRom2 a) s = .fail) :
    xfer .deviceInfo a 0 s = .ended (failed (wireRom2 a) (3#2 ++ a) s) := by
  rw [xfer, hshape, requestFrame_rom2, transact_failed h hq, headerByte_wireRom2]

/-- The frames of RAC_LIST end at the first one when it fails (R83, R108). -/
theorem racFrames_cons_failed {mask : U32} {rest : List (Addr × U32)} (h : s.env.abandonAfter = none)
    (hq : deviceAnswer (wire 2 a (mask.setWidth 24)) s = .fail) :
    racFrames ((a, mask) :: rest) s = .ended (failed (wire 2 a (mask.setWidth 24)) (2#2 ++ a) s) := by
  rw [racFrames, xfer_rac_failed h hq, andThen_ended]

/-- The frames of WD_SET_INTERVAL end at the first one, the READ of the configuration register, when it fails (R96, R108). -/
theorem intervalFrames_failed {arg : U32} (h : s.env.abandonAfter = none)
    (hq : deviceAnswer (wire 1 0x3F 0) s = .fail) :
    intervalFrames arg s = .ended (failed (wire 1 0x3F 0) (1#2 ++ 0x3F#6) s) := by
  have hfirst : modifySeq configAddr s.cfg.wdCfgEnMask s.cfg.wdCfgEnMask s
      = .ended (failed (wire 1 0x3F 0) (1#2 ++ 0x3F#6) s) := modifySeq_read_failed h (fun _ => rfl) hq
  rw [intervalFrames, hfirst, andThen_ended]

/-- The samples of READ_AVG end at the first READ when it fails; it is counted (R101, R108). -/
theorem averageLoop_failed {mask arg : U32} {n : Nat} (h : s.env.abandonAfter = none)
    (hq : deviceAnswer (wire 1 a 0) s = .fail) :
    averageLoop a mask arg (n + 1) s = .ended (failed (wire 1 a 0) (1#2 ++ a) (s.setI (s.cur.i + 1))) := by
  rw [averageLoop, xfer_read_failed (s := s.setI (s.cur.i + 1)) h hq, andThen_ended]

/-- A command that ends at a failed frame of the first piece behind its range check, which the operand passes (R63, R108). -/
theorem runCommand_inRange_failed {α : Type} {m : State → Seq α} {k : α → State → Seq (U32 × Bool)} {arg : U32} {max : Nat}
    {t : State} {tx : List Byte} {h : Byte} (hf : s.faulted = false) (harg : arg.toNat ≤ max)
    (hm : m (s.setBusy true) = .ended (failed tx h (t.setBusy true))) :
    runCommand (fun s => andThen (checkRange arg max s) fun _ s => andThen (m s) k) s = failed tx h t := by
  rw [runCommand_inRange harg, runCommand_failed hf hm]

/-- READ_AVG whose first READ fails: it is counted, and nothing is added (R101, R108). -/
theorem exec_readAvg_failed {mask arg : U32} (hr : ready s) (harg : arg.toNat ≤ maxBitPos)
    (hq : deviceAnswer (wire 1 a 0) s = .fail) :
    exec (.readAvg a mask arg) s = .next (failed (wire 1 a 0) (1#2 ++ a) ((s.setSum 0).setI 1)) := by
  obtain ⟨hf, ha⟩ := hr
  refine congrArg _ (runCommand_inRange_failed hf harg ?_)
  exact averageLoop_failed (n := 4) (s := ((s.setBusy true).setSum 0).setI 0) ha hq

/-- Settles O37: each body starts with a sequence that ends at its first frame, behind the checks that the operands pass. -/
theorem firstFrameFailureLeavesOnlyTheFault : Obligations.FirstFrameFailureLeavesOnlyTheFault := by
  intro reg mask data arg rest s ⟨hf, ha⟩ hcfg
  obtain ⟨htrig, -, hmode, -⟩ := cfgOk_writable hcfg
  have ha' : (s.setBusy true).env.abandonAfter = none := ha
  refine ⟨fun hw hq => ?_, fun hq => ?_, fun hq => ⟨?_, ?_⟩, fun hshape hq => ?_, fun hshape hq => ?_, fun hq => ?_,
    fun harg hq => ?_, fun harg hq => ?_, fun harg hq => exec_readAvg_failed ⟨hf, ha⟩ harg hq⟩
  · exact congrArg _ (runCommand_failed hf (writeSeq_failed ha' hw hq))
  · exact congrArg _ (runCommand_failed hf (xfer_read_failed ha' hq))
  · exact congrArg _ (runCommand_failed hf (xfer_rac_failed ha' hq))
  · exact congrArg _ (runCommand_failed hf (racFrames_cons_failed ha' hq))
  · exact congrArg _ (runCommand_failed hf (xfer_rom4_failed ha' hshape hq))
  · exact congrArg _ (runCommand_failed hf (xfer_rom2_failed ha' hshape hq))
  · exact congrArg _ (runCommand_failed hf (doRefresh_failed ha' (fun _ => htrig) hq))
  · exact congrArg _ (runCommand_inRange_failed hf harg (intervalFrames_failed ha' hq))
  · refine congrArg _ (runCommand_inRange_failed hf harg ?_)
    exact modifySeq_read_failed ha' (fun _ => hmode) hq

end Sys2Proof.Machine

/-! ### WD_ENABLE and WD_DISABLE, and the steps that run no instruction (R97, R98, R102, R135, R136) -/

namespace Sys2Proof.Machine

/-- Settles O23: each body sets WD_RUN and ends. -/
theorem enableAndDisableSetTheRunningFlag : Obligations.EnableAndDisableSetTheRunningFlag :=
  fun s hf => ⟨congrArg _ (runCommand_runs (t := s.setRun true) hf rfl), congrArg _ (runCommand_runs (t := s.setRun false) hf rfl)⟩

/-- An idle host changes nothing (R102, R136). -/
theorem step_idle {s : State} (hp : s.env.pending = []) (hb : s.cur.busy = false) : step s = .next s := by
  simp [step, fetch, hp, hb]

/-- What does not decode is no host move (R136, log 19). -/
theorem step_notPresentable {s : State} {p : Presented} {more : List Move} {e : DecodeError}
    (hp : s.env.pending = .present p :: more) (hb : s.cur.busy = false) (hd : decode s.cfg.romShape p = .error e) :
    step s = .refused (.notPresentable e) := by
  simp [step, fetch, hp, hb, hd]

/-- Settles O46: without a reset move, a busy block is stuck, and one that is not takes what the host's move decodes to. -/
theorem stepIsIdleStuckOrRefused : Obligations.StepIsIdleStuckOrRefused :=
  fun _ => ⟨step_idle, fun hp hb => step_busy hb (by simp [hp]), fun _ _ hp hb => step_busy hb (by simp [hp]),
    fun _ _ _ hp hb hd => step_notPresentable hp hb hd⟩

end Sys2Proof.Machine

/-! ### One watchdog check of a ready block (R91–R93, R108) -/

namespace Sys2Proof.Machine

variable {s : State}

theorem decided_setBusy (b : Bool) (s : State) : decided (s.setBusy b) = (decided s).setBusy b := by
  simp only [decided, checkSampled_setBusy, clockSample_setBusy]
  rfl

theorem expired_setBusy (b : Bool) (s : State) (now : U64) : expired (s.setBusy b) now = expired s now := rfl

/-- Before expiry a check leaves only its clock sample (R92). -/
theorem decided_of_not_expired (hx : expired s (clockSample s) = false) : decided s = checkSampled s := by
  rw [decided, hx]
  rfl

/-- At expiry WD_LAST is the sample (R92). -/
theorem decided_of_expired (hx : expired s (clockSample s) = true) :
    decided s = { checkSampled s with wdLast := clockSample s } := by
  rw [decided, hx, if_pos rfl]

/-- WD_CHECK that owes no refresh. -/
theorem exec_wdCheck_quiet (hr : ready s) (hq : (expired s (clockSample s) && s.wdRun) = false) :
    exec .wdCheck s = .next (completed .ok 0 (expired s (clockSample s)) (decided s)) := by
  obtain ⟨hf, ha⟩ := hr
  refine congrArg _ (runCommand_runs hf ?_)
  rw [wdCheckBody_quiet (s := s.setBusy true) ha (by rwa [clockSample_setBusy]), andThen_run, decided_setBusy, clockSample_setBusy,
    expired_setBusy]

/-- The body of WD_CHECK that owes a refresh: the refresh, from where the check has decided. -/
theorem wdCheckBody_busy_refreshing (ha : s.env.abandonAfter = none) (hx : expired s (clockSample s) = true) (hr : s.wdRun = true) :
    wdCheckBody (s.setBusy true) = andThen (doRefresh ((decided s).setBusy true)) fun _ t => .run true t := by
  have hq : (expired (s.setBusy true) (clockSample (s.setBusy true)) && (s.setBusy true).wdRun) = true := by
    rw [clockSample_setBusy, expired_setBusy, hx, setBusy_wdRun, hr, Bool.and_self]
  rw [wdCheckBody_refreshing (s := s.setBusy true) ha hq, decided_setBusy]

/-- Settles O20: before expiry and while STOPPED the check ends where it has decided; otherwise the refresh follows. -/
theorem wdCheckRefreshesWhenExpiredAndRunning : Obligations.WdCheckRefreshesWhenExpiredAndRunning := by
  intro s hr
  refine ⟨fun hx => ?_, fun hx hstop => ?_, fun b0 b1 b2 b3 c0 c1 c2 c3 hx hrun hw hq => ?_⟩
  · have hx : expired s (clockSample s) = false := by simpa [expired_eq] using hx
    rw [exec_wdCheck_quiet hr (by rw [hx, Bool.false_and]), decided_of_not_expired hx, hx]
  · have hx : expired s (clockSample s) = true := by simpa [expired_eq] using hx
    rw [exec_wdCheck_quiet hr (by rw [hstop, Bool.and_false]), decided_of_expired hx, hx]
  · have hx : expired s (clockSample s) = true := by simpa [expired_eq] using hx
    obtain ⟨hf, ha⟩ := hr
    rw [← decided_of_expired hx] at hq ⊢
    have hrefresh : doRefresh ((decided s).setBusy true)
        = .run () ((rewritten (trigReg s.cfg) (payload b1 b2 b3 ^^^ trigMask s.cfg) b0 b1 b2 b3 c0 c1 c2 c3 (decided s)).setBusy true) := by
      rw [← rewritten_setBusy]
      exact doRefresh_rewritten (s := (decided s).setBusy true) (by simpa using ha) hw ((rewriteAnswered_setBusy ..).mpr hq)
    refine congrArg _ (runCommand_runs hf ?_)
    rw [wdCheckBody_busy_refreshing ha hx hrun, hrefresh, andThen_run, andThen_run]

/-- A refresh whose second frame fails (R93, R108). -/
theorem doRefresh_write_failed {b : Rx4} (ha : s.env.abandonAfter = none)
    (hw : s.cfg.enforceWritable = true → writable (trigReg s.cfg) = true)
    (hr : deviceAnswer (wire 1 (trigReg s.cfg) 0) s = rxAnswer b)
    (hq : deviceAnswer (wire 0 (trigReg s.cfg) ((rxPayload b ^^^ trigMask s.cfg).setWidth 24))
      (replied4 (wire 1 (trigReg s.cfg) 0) b.1 b.2.1 b.2.2.1 b.2.2.2 s) = .fail) :
    doRefresh s
      = .ended (failed (wire 0 (trigReg s.cfg) ((rxPayload b ^^^ trigMask s.cfg).setWidth 24)) (0#2 ++ trigReg s.cfg)
          ((replied4 (wire 1 (trigReg s.cfg) 0) b.1 b.2.1 b.2.2.1 b.2.2.2 s).setTmp (rxPayload b ^^^ trigMask s.cfg))) := by
  rw [doRefresh, checkWritable_passes hw, andThen_run]
  exact readThenWrite_write_failed ha hr hq

/-- WD_CHECK whose refresh ends at a failed frame. -/
theorem exec_wdCheck_failed {tx : List Byte} {h : Byte} {t : State} (hr : ready s) (hx : expired s (clockSample s) = true)
    (hrun : s.wdRun = true) (hd : doRefresh ((decided s).setBusy true) = .ended (failed tx h (t.setBusy true))) :
    exec .wdCheck s = .next (failed tx h t) := by
  obtain ⟨hf, ha⟩ := hr
  refine congrArg _ (runCommand_failed hf ?_)
  rw [wdCheckBody_busy_refreshing ha hx hrun, hd, andThen_ended]

/-- Settles O39: the refresh starts where the check has decided, and each of its frames can be the one that fails. -/
theorem failedRefreshKeepsTheNewTimestamp : Obligations.FailedRefreshKeepsTheNewTimestamp := by
  intro s hr hcfg hrun hx
  have hx : expired s (clockSample s) = true := by simpa [expired_eq] using hx
  have ha : ((decided s).setBusy true).env.abandonAfter = none := (decided_abandonAfter s).trans hr.2
  have hw : s.cfg.enforceWritable = true → writable (trigReg s.cfg) = true := fun _ => (cfgOk_writable hcfg).1
  rw [← decided_of_expired hx]
  refine ⟨fun hq => exec_wdCheck_failed hr hx hrun (doRefresh_failed ha hw hq), fun b hb hq => ⟨_, rfl, ?_⟩⟩
  refine exec_wdCheck_failed hr hx hrun ((doRefresh_write_failed (b := b) ha hw hb ?_).trans ?_)
  · rw [deviceAnswer_replied4_setBusy]
    exact hq
  · rw [replied4_setBusy]
    rfl

end Sys2Proof.Machine

/-! ### The settings that fail or hang (R96, R99, R108, R109) -/

namespace Sys2Proof.Machine

variable {s t u : State}

/-- `t` has the watchdog's registers of `s` (R18–R20). -/
structure SameWatchdog (s t : State) : Prop where
  run : t.wdRun = s.wdRun
  interval : t.wdInterval = s.wdInterval
  last : t.wdLast = s.wdLast

theorem SameWatchdog.trans (h : SameWatchdog s t) (k : SameWatchdog t u) : SameWatchdog s u :=
  ⟨k.run.trans h.run, k.interval.trans h.interval, k.last.trans h.last⟩

/-- Where a frame pair of a setting stands: the watchdog's registers untouched, no frame failed. -/
structure Setting (s t : State) : Prop extends SameWatchdog s t, Going s t

theorem Setting.trans (h : Setting s t) (k : Setting t u) : Setting s u :=
  ⟨h.toSameWatchdog.trans k.toSameWatchdog, h.toGoing.trans k.toGoing⟩

theorem Meets.and {α : Type} {m : Seq α} {R R' E E' : State → Prop} (h : Meets m R E) (h' : Meets m R' E') :
    Meets m (fun s => R s ∧ R' s) (fun s => E s ∧ E' s) := by
  cases m with
  | run a s => exact ⟨h, h'⟩
  | ended s => exact ⟨h, h'⟩

theorem Ran.refl {i : Instr} (s : State) : Ran i s s := by constructor <;> simp

/-- A read-modify-write is the body of MODIFY, which writes no register of the watchdog (R18–R20, R81). -/
theorem modifySeq_setting (a : Addr) (mask data : U32) (s : State) :
    Meets (modifySeq a mask data s) (Setting s) (SameWatchdog s) := by
  have hsame (t : State) (h : Ran (.modify a mask data) s t) : SameWatchdog s t :=
    ⟨h.run (by simp [setsRun]), h.interval (by simp [setsInterval]), h.last (by simp [setsLast, setsInterval])⟩
  have hran := modifySeq_leaves (ran_closed (.modify a mask data) s) (mask := mask) (data := data) (a := a) rfl
    (Ran.refl s)
  have hgoing := modifySeq_leaves (ending_closed (.modify a mask data) s) (mask := mask) (data := data) (a := a) rfl (Going.refl s)
  exact (hran.and hgoing).imp (fun t h => ⟨hsame t h.1, h.2⟩) fun t h => hsame t h.1

/-- Both frame pairs of WD_SET_INTERVAL (R96). -/
theorem intervalFrames_setting (arg : U32) (s : State) :
    Meets (intervalFrames arg s) (Setting s) (SameWatchdog s) :=
  meets_andThen (modifySeq_setting _ _ _ s) fun _ t ht =>
    (modifySeq_setting _ _ _ t).imp (fun _ hu => ht.trans hu) fun _ hu => ht.toSameWatchdog.trans hu

/-- A command that failed or that has not ended left this (R108, R109). -/
def cutShort (t : State) : Prop :=
  t.faulted = true ∨ t.cur.busy = true

theorem not_cutShort_completed {status : Status} {d : U32} {f : Bool} (h : t.faulted = false) : ¬ cutShort (completed status d f t) := by
  simp [cutShort, completed, h]

/-- A command with a range check that was cut short: what holds of every state with the watchdog's registers of `s` holds of what it
leaves, when its body, where it is cut short, keeps them. -/
theorem runCommand_checkRange_cutShort {arg : U32} {max : Nat} {k : Unit → State → Seq (U32 × Bool)} {P : State → Prop}
    (hsame : ∀ t, SameWatchdog s t → P t)
    (hk : s.faulted = false → Meets (k () (s.setBusy true)) (fun t => t.faulted = false) (SameWatchdog (s.setBusy true))) :
    cutShort (runCommand (fun s => andThen (checkRange arg max s) k) s) →
      P (runCommand (fun s => andThen (checkRange arg max s) k) s) := by
  refine runCommand_meets (P := fun t => cutShort t → P t) (fun _ _ => hsame _ ⟨rfl, rfl, rfl⟩) fun hf => ?_
  unfold checkRange
  split
  · exact fun _ => hsame _ ⟨rfl, rfl, rfl⟩
  · exact (hk hf).imp (fun t ht _ _ hc => absurd hc (not_cutShort_completed ht)) fun t ht _ => hsame t ⟨ht.run, ht.interval, ht.last⟩

/-- Settles O38: the frames leave the watchdog's registers alone, and what follows them cannot fail or hang. -/
theorem failedSettingKeepsTheWatchdogState : Obligations.FailedSettingKeepsTheWatchdogState := by
  intro arg s t hcut
  refine ⟨fun ha he => ?_, fun he => ?_⟩
  · rw [← Host.Outcome.next.inj he] at hcut ⊢
    refine runCommand_checkRange_cutShort (P := fun t => t.wdInterval = s.wdInterval ∧ t.wdLast = s.wdLast)
      (fun t h => ⟨h.interval, h.last⟩) (fun hf => ?_) hcut
    refine meets_andThen (intervalFrames_setting arg (s.setBusy true)) fun _ u hu => ?_
    rw [sampleNow_ready (s := u.setInterval (intervalOf u.cfg arg)) (hu.strike ha), andThen_run]
    exact hu.faulted.trans hf
  · rw [← Host.Outcome.next.inj he] at hcut ⊢
    refine runCommand_checkRange_cutShort (P := fun t => t.wdRun = s.wdRun) (fun t h => h.run) (fun hf => ?_) hcut
    refine meets_andThen (modifySeq_setting _ _ _ (s.setBusy true)) fun _ u hu => ?_
    have hu : u.faulted = false := hu.faulted.trans hf
    split
    · exact hu
    · exact hu

end Sys2Proof.Machine

/-! ### MAINTAIN while STOPPED, struck by the host's reset or not (R92, R95, R100, R136) -/

namespace Sys2Proof.Machine

variable {s : State} {c : U64} {cs pre post : List U64}

/-- A primitive begins unless the host's reset strikes now (log 8). -/
theorem primitive_begins (h : s.env.abandonAfter ≠ some 0) : primitive s = .run () (begun s) :=
  (primitive_cases s).resolve_right fun hs => h hs.2

theorem sleep1_begins (h : s.env.abandonAfter ≠ some 0) : sleep1 s = .run () ((begun s).record [.sleep]) := by
  rw [sleep1, primitive_begins h, andThen_run]

theorem sleep1_struck (h : s.env.abandonAfter = some 0) : sleep1 s = .ended s := by
  rw [sleep1, primitive_struck h, andThen_ended]

theorem wdCheckBody_struck (h : s.env.abandonAfter = some 0) : wdCheckBody s = .ended s := by
  rw [wdCheckBody, sampleNow, primitive_struck h, andThen_ended, andThen_ended]

/-- The state a check leaves while STOPPED, `c` its clock sample (R92). -/
def checkedStopped (c : U64) (s : State) : State :=
  { s with
    wdLast := lastExpiry s.wdInterval s.wdLast [c]
    cur := { s.cur with now := c, step := s.cur.step + 1 }
    env := { s.env with
      samples := s.env.samples.tail
      clock := c
      abandonAfter := s.env.abandonAfter.map (· - 1)
      trace := s.env.trace ++ [.sample c] } }

/-- What a check makes of its clock sample while STOPPED (R91, R92). -/
theorem checkAt_stopped (hstop : s.wdRun = false) (now : U64) :
    checkAt now s = .run (expired s now) (s.setLast (lastExpiry s.wdInterval s.wdLast [now])) := by
  rw [lastExpiry_cons_expired, lastExpiry]
  cases hx : expired s now with
  | false => rw [checkAt, hx]; rfl
  | true => rw [checkAt, hx, hstop]; rfl

/-- A check while STOPPED that the host's reset does not strike, its clock sample scripted. -/
theorem wdCheckBody_stopped_scripted (h : s.env.abandonAfter ≠ some 0) (hstop : s.wdRun = false)
    (hs : s.env.samples = c :: cs) (hc : s.env.clock ≤ c) :
    wdCheckBody s = .run (expired s c) (checkedStopped c s) := by
  have hsample : clockSample (begun s) = c := (clockSample_scripted (s := begun s) hs).2 hc
  have hstart : checkStart s = { checkedStopped c s with wdLast := s.wdLast } := by
    rw [checkStart, hsample, takeSample_eq, takeSample_env_scripted (s := begun s) hs hc]
    simp [checkedStopped, begun, hs, State.record, State.setNow]
  rw [(wdCheckBody_cases s).resolve_left fun hn => h hn.1, hsample, hstart]
  exact checkAt_stopped (s := { checkedStopped c s with wdLast := s.wdLast }) hstop c

/-- The state that iterations of MAINTAIN leave while STOPPED, `cs` their clock samples (R100). -/
def maintainedStopped (cs : List U64) (s : State) : State :=
  { s with
    wdLast := lastExpiry s.wdInterval s.wdLast cs
    cur := { s.cur with
      i := s.cur.i + BitVec.ofNat 32 cs.length
      now := cs.getLastD s.cur.now
      step := s.cur.step + 2 * cs.length }
    env := { s.env with
      samples := s.env.samples.drop cs.length
      clock := cs.getLastD s.env.clock
      abandonAfter := s.env.abandonAfter.map (· - 2 * cs.length)
      trace := s.env.trace ++ cs.flatMap fun c => [.sample c, .sleep] } }

theorem maintainedStopped_nil (s : State) : maintainedStopped [] s = s := by
  simp [maintainedStopped, lastExpiry]

theorem maintainedStopped_cons (c : U64) (cs : List U64) (s : State) :
    maintainedStopped cs (maintainedStopped [c] s) = maintainedStopped (c :: cs) s := by
  have hlast : lastExpiry s.wdInterval (lastExpiry s.wdInterval s.wdLast [c]) cs = lastExpiry s.wdInterval s.wdLast (c :: cs) :=
    (lastExpiry_append _ _ [c] cs).symm
  have hcount : 1#32 + BitVec.ofNat 32 cs.length = BitVec.ofNat 32 (cs.length + 1) := by
    rw [BitVec.ofNat_add, add_comm]
  have hstep : s.cur.step + 2 + 2 * cs.length = s.cur.step + 2 * (cs.length + 1) := by omega
  have hstrike : (fun n => n - 2 * cs.length) ∘ (fun n => n - 2) = fun n => n - 2 * (cs.length + 1) := by
    funext n
    simp only [Function.comp_apply]
    omega
  simp [maintainedStopped, hlast, hcount, hstep, hstrike, add_assoc, List.getLast?_cons]

/-- Scripted for iterations of MAINTAIN while STOPPED: their clock samples, and no strike of the host's reset before they are over. -/
structure MaintainScript (cs : List U64) (s : State) : Prop where
  stopped : s.wdRun = false
  samples : cs <+: s.env.samples
  rising : (s.env.clock :: cs).Pairwise (· ≤ ·)
  strike : ∀ k, s.env.abandonAfter = some k → 2 * cs.length ≤ k

theorem MaintainScript.tail (h : MaintainScript (c :: cs) s) : MaintainScript cs (maintainedStopped [c] s) where
  stopped := h.stopped
  samples := h.samples.drop 1
  rising := (List.pairwise_cons.mp h.rising).2
  strike := by
    intro k hk
    obtain ⟨n, hn, rfl⟩ := Option.map_eq_some_iff.mp hk
    have hle := h.strike n hn
    simp only [List.length_cons, List.length_nil] at *
    omega

/-- The first check of iterations that the host's reset does not strike before they are over. -/
theorem MaintainScript.check (h : MaintainScript (c :: cs) s) :
    wdCheckBody s = .run (expired s c) (checkedStopped c s) := by
  obtain ⟨more, hmore⟩ := h.samples
  refine wdCheckBody_stopped_scripted (fun hk => ?_) h.stopped hmore.symm ((List.pairwise_cons.mp h.rising).1 c List.mem_cons_self)
  have hle := h.strike 0 hk
  simp at hle

/-- One iteration of MAINTAIN while STOPPED. -/
theorem maintainLoop_stopped_succ (n : Nat) (h : MaintainScript (c :: cs) s) :
    maintainLoop (n + 1) s = maintainLoop n (maintainedStopped [c] s) := by
  have hstrike : (checkedStopped c s).env.abandonAfter ≠ some 0 := by
    intro hk
    obtain ⟨k, hk, hzero⟩ := Option.map_eq_some_iff.mp hk
    have hle := h.strike k hk
    rw [List.length_cons] at hle
    omega
  have hslept : ((begun (checkedStopped c s)).record [.sleep]).setI (s.cur.i + 1) = maintainedStopped [c] s := by
    simp [checkedStopped, maintainedStopped, begun, State.record, State.setI, Function.comp_def, Nat.sub_sub]
  rw [maintainLoop, h.check, andThen_run, sleep1_begins hstrike, andThen_run, ← hslept]
  rfl

/-- Iterations of MAINTAIN while STOPPED, with `n` more to come. -/
theorem maintainLoop_stopped (n : Nat) (h : MaintainScript cs s) :
    maintainLoop (cs.length + n) s = maintainLoop n (maintainedStopped cs s) := by
  induction cs generalizing s with
  | nil => rw [maintainedStopped_nil, List.length_nil, Nat.zero_add]
  | cons c cs ih =>
    rw [List.length_cons, Nat.succ_add_eq_add_succ, Nat.add_succ, maintainLoop_stopped_succ _ h, ih h.tail, maintainedStopped_cons]

/-- MAINTAIN of a block that is not FAULTED: its iterations, and then the result. -/
theorem execMaintain_of_loop {arg : U32} {t : State} (hf : s.faulted = false)
    (hl : maintainLoop arg.toNat ((s.setBusy true).setI 0) = .run () t) :
    exec (.maintain arg) s = .next (completed .ok 0 false t) :=
  congrArg _ (runCommand_run hf (by rw [hl, andThen_run]))

/-- MAINTAIN of a block that is not FAULTED, ended inside its iterations. -/
theorem execMaintain_of_loop_ended {arg : U32} {t : State} (hf : s.faulted = false)
    (hl : maintainLoop arg.toNat ((s.setBusy true).setI 0) = .ended t) : exec (.maintain arg) s = .next t :=
  congrArg _ (runCommand_ended hf (by rw [hl, andThen_ended]))

/-- Settles O25: all iterations run, and their exact state is the statement's. -/
theorem maintainWhileStoppedChecksAndSleeps : Obligations.MaintainWhileStoppedChecksAndSleeps := by
  intro arg s cs ⟨hf, ha⟩ hstop hs hlen hrising
  have hscript : MaintainScript cs ((s.setBusy true).setI 0) :=
    ⟨hstop, ⟨[], by rw [List.append_nil]; exact hs.symm⟩, hrising, fun k hk => by cases ha.symm.trans hk⟩
  have hloop := maintainLoop_stopped 0 hscript
  rw [hlen] at hloop
  rw [execMaintain_of_loop hf hloop]
  simp [maintainedStopped, completed, hlen, hs, ha]

/-- A strike of the host's reset when the iterations with the clock samples `pre` are over, and the next one begins. -/
theorem maintainLoop_struck_awake (n : Nat) (h : MaintainScript pre s) (hk : s.env.abandonAfter = some (2 * pre.length)) :
    maintainLoop (pre.length + (n + 1)) s = .ended (maintainedStopped pre s) := by
  have hdue : (maintainedStopped pre s).env.abandonAfter = some 0 := by simp [maintainedStopped, hk]
  rw [maintainLoop_stopped _ h, maintainLoop, wdCheckBody_struck hdue, andThen_ended]

/-- A strike of the host's reset when the iterations with the clock samples `pre` are over and the next one has made its check. -/
theorem maintainLoop_struck_asleep (n : Nat) (h : MaintainScript pre s) (hk : s.env.abandonAfter = some (2 * pre.length + 1))
    (hs : s.env.samples = pre ++ c :: post) (hrising : (s.env.clock :: (pre ++ c :: post)).Pairwise (· ≤ ·)) :
    maintainLoop (pre.length + (n + 1)) s = .ended (checkedStopped c (maintainedStopped pre s)) := by
  have hstrike : (maintainedStopped pre s).env.abandonAfter = some 1 := by simp [maintainedStopped, hk]
  have hdue : (checkedStopped c (maintainedStopped pre s)).env.abandonAfter = some 0 := congrArg (Option.map (· - 1)) hstrike
  have hsamples : (maintainedStopped pre s).env.samples = c :: post := by simp [maintainedStopped, hs]
  have hstopped : (maintainedStopped pre s).wdRun = false := h.stopped
  have hle : (maintainedStopped pre s).env.clock ≤ c := by
    rw [← List.cons_append] at hrising
    exact (List.pairwise_append.mp hrising).2.2 _ List.getLastD_mem_cons c List.mem_cons_self
  rw [maintainLoop_stopped _ h, maintainLoop, wdCheckBody_stopped_scripted (by simp [hstrike]) hstopped hsamples hle, andThen_run,
    sleep1_struck hdue, andThen_ended]

/-- The events of the first iterations, and of a part of the next one. -/
theorem take_iterations (pre post : List U64) (c : U64) (r : Nat) :
    ((pre ++ c :: post).flatMap fun c => [Event.sample c, .sleep]).take (2 * pre.length + r)
      = (pre.flatMap fun c => [.sample c, .sleep]) ++ ((c :: post).flatMap fun c => [.sample c, .sleep]).take r := by
  have hlen : (pre.flatMap fun c => [Event.sample c, .sleep]).length = 2 * pre.length := by
    simp [List.length_flatMap, Nat.mul_comm]
  rw [List.flatMap_append, ← hlen, List.take_length_add_append]

/-- Settles O42: whole iterations run, and the strike falls at the check that follows them or at its sleep. -/
theorem resetStrikesMaintainAtAnyPrimitive : Obligations.ResetStrikesMaintainAtAnyPrimitive := by
  intro arg s cs k hf hk hlt hstop hs hlen hrising
  obtain ⟨pre, c, post, rfl, hpre⟩ : ∃ pre c post, cs = pre ++ c :: post ∧ pre.length = k / 2 :=
    ⟨cs.take (k / 2), cs[k / 2], cs.drop (k / 2 + 1), by simp, by simp; omega⟩
  have hscript : MaintainScript pre ((s.setBusy true).setI 0) := by
    refine ⟨hstop, ⟨c :: post, hs.symm⟩, hrising.sublist (by simp), fun n hn => ?_⟩
    obtain rfl : k = n := Option.some.inj (hk.symm.trans hn)
    omega
  have hcount : arg.toNat = pre.length + (post.length + 1) := by simpa using hlen.symm
  obtain rfl | rfl : k = 2 * pre.length + 0 ∨ k = 2 * pre.length + 1 := by omega
  · have hloop := maintainLoop_struck_awake post.length hscript hk
    rw [← hcount] at hloop
    refine ⟨_, execMaintain_of_loop_ended hf hloop, ?_, ?_, rfl, rfl, rfl, hf, rfl, rfl⟩
    · rw [take_iterations]
      simp [maintainedStopped]
    · have hhalf : (2 * pre.length + 0 + 1) / 2 = pre.length := by omega
      rw [hhalf, List.take_left]
      rfl
  · have hloop := maintainLoop_struck_asleep post.length hscript hk hs hrising
    rw [← hcount] at hloop
    refine ⟨_, execMaintain_of_loop_ended hf hloop, ?_, ?_, rfl, rfl, rfl, hf, rfl, rfl⟩
    · rw [take_iterations]
      simp [maintainedStopped, checkedStopped]
    · have hhalf : (2 * pre.length + 1 + 1) / 2 = (pre ++ [c]).length := by simp; omega
      rw [hhalf, List.append_cons pre c post, List.take_left, lastExpiry_append]
      rfl

end Sys2Proof.Machine

/-! ### MAINTAIN that the device serves (R100, R103 (c), R104) -/

namespace Sys2Proof.Machine

/-- The state a sleep and the count of its iteration leave (R100). -/
def sleptCounted (s : State) : State :=
  (s.advance.record [.sleep]).setI (s.cur.i + 1)

theorem maintainLoop_succ {n : Nat} {e : Bool} {s t : State} (hc : wdCheckBody s = .run e t) (ha : t.env.abandonAfter = none) :
    maintainLoop (n + 1) s = maintainLoop n (sleptCounted t) := by
  rw [maintainLoop, hc, andThen_run, sleep1_ready ha, andThen_run]
  rfl

/-- Iterations of MAINTAIN from `s` to `t` as the ports show them (R100): of each a check and a sleep. -/
structure Maintained (ks : List CheckSeen) (s t : State) : Prop where
  owed : checksOwed s ks
  trace : t.env.trace = s.env.trace ++ ks.flatMap (iterationEvents s.cfg)
  answers : s.env.answers = ks.flatMap checkAnswers ++ t.env.answers
  last : t.wdLast = lastExpiry s.wdInterval s.wdLast (ks.map CheckSeen.now)
  count : t.cur.i = s.cur.i + BitVec.ofNat 32 ks.length
  faulted : t.faulted = s.faulted

theorem Maintained.nil (s : State) : Maintained [] s s where
  owed := checksOwed_nil s
  trace := by simp
  answers := rfl
  last := rfl
  count := by simp
  faulted := rfl

theorem Maintained.cons {k : CheckSeen} {ks : List CheckSeen} {s t u : State} (hk : CheckDone k s t)
    (h : Maintained ks (sleptCounted t) u) : Maintained (k :: ks) s u where
  owed := hk.owed_cons ((checksOwed_congr rfl rfl rfl rfl rfl).mp h.owed)
  trace := by
    have hslept : (sleptCounted t).env.trace = t.env.trace ++ [.sleep] := rfl
    have hcfg : (sleptCounted t).cfg = s.cfg := hk.cfg
    rw [h.trace, hslept, hk.trace, hcfg, List.flatMap_cons, iterationEvents]
    simp
  answers := by
    have hslept : (sleptCounted t).env.answers = t.env.answers := rfl
    rw [hk.answers, ← hslept, h.answers, List.flatMap_cons, List.append_assoc]
  last := h.last.trans (hk.last_cons _).symm
  count := by
    have hslept : (sleptCounted t).cur.i = s.cur.i + 1 := congrArg (· + 1) hk.count
    rw [h.count, hslept, List.length_cons, BitVec.ofNat_add, add_comm (BitVec.ofNat 32 ks.length), ← add_assoc]
    rfl
  faulted := h.faulted.trans hk.faulted

/-- The iterations of a MAINTAIN that a device answering Ok serves: two answers for each are enough. -/
theorem maintainLoop_serving (n : Nat) {s : State} (h : Serving (2 * n) s) (hc : cfgOk s.cfg = true) :
    ∃ (ks : List CheckSeen) (t : State), maintainLoop n s = .run () t ∧ ks.length = n ∧ Maintained ks s t := by
  induction n generalizing s with
  | zero => exact ⟨[], s, rfl, rfl, .nil s⟩
  | succ n ih =>
    obtain ⟨k, e, t, hrun, hk, ht⟩ := wdCheckBody_serving (n := 2 * n) h hc
    have hslept : Serving (2 * n) (sleptCounted t) := ⟨ht.ready, ht.enough, ht.ok⟩
    obtain ⟨ks, u, hloop, hlen, hks⟩ := ih hslept ((congrArg cfgOk hk.cfg).trans hc)
    exact ⟨k :: ks, u, (maintainLoop_succ hrun ht.ready).trans hloop, by rw [List.length_cons, hlen], .cons hk hks⟩

/-- Settles O26, by induction on the iterations: each is a check that the device serves, and a sleep. -/
theorem maintainRefreshesAtExactlyItsExpiries : Obligations.MaintainRefreshesAtExactlyItsExpiries := by
  intro arg s ⟨hf, ha⟩ hc hlen hok
  have hs : Serving (2 * arg.toNat) ((s.setBusy true).setI 0) := ⟨ha, hlen, hok⟩
  obtain ⟨ks, t, hloop, hks, hm⟩ := maintainLoop_serving arg.toNat hs hc
  refine ⟨_, ks, execMaintain_of_loop hf hloop, hks, (checksOwed_congr rfl rfl rfl rfl rfl).mp hm.owed, hm.answers,
    congrArg (· ++ _) hm.trace, hm.last, rfl, rfl, ?_, hm.faulted.trans hf⟩
  show t.cur.i = arg
  rw [hm.count, hks]
  simp

end Sys2Proof.Machine

/-! ### The spacing of expiries and refreshes (R91–R93, R100, R103) -/

namespace Sys2Proof.Machine

variable {i : Instr} {interval : U32} {last c : U64} {cs : List U64} {s t u : State}

/-- The expiry test against a WD_LAST that is no later, without the wrap (R91). -/
theorem interval_le_sub_iff (h : last ≤ c) :
    interval.setWidth 64 ≤ c - last ↔ last.toNat + interval.toNat ≤ c.toNat := by
  have hle : last.toNat ≤ c.toNat := h
  rw [BitVec.le_def, BitVec.toNat_setWidth_of_le (by decide), BitVec.toNat_sub_of_le h]
  omega

/-! #### WD_LAST moves by at least WD_INTERVAL -/

/-- From `s` to `t` WD_LAST, no later than the clock, has stayed or moved on by at least the WD_INTERVAL that both have. -/
structure Spaced (s t : State) : Prop where
  cfg : t.cfg = s.cfg
  interval : t.wdInterval = s.wdInterval
  last : t.wdLast ≤ t.env.clock
  moved : t.wdLast = s.wdLast ∨ s.wdLast.toNat + s.wdInterval.toNat ≤ t.wdLast.toNat

/-- Only the configuration, the clock, WD_INTERVAL and WD_LAST matter. -/
theorem Spaced.congr (h : Spaced s t) (hcfg : u.cfg = t.cfg) (hinterval : u.wdInterval = t.wdInterval) (hlast : u.wdLast = t.wdLast)
    (hclock : u.env.clock = t.env.clock) : Spaced s u where
  cfg := hcfg.trans h.cfg
  interval := hinterval.trans h.interval
  last := by rw [hlast, hclock]; exact h.last
  moved := by rw [hlast]; exact h.moved

theorem Spaced.asked (h : Spaced s t) (tx : List Byte) : Spaced s (askDevice tx t) :=
  h.congr (askDevice_cfg tx t) (askDevice_wdInterval tx t) (askDevice_wdLast tx t) (askDevice_clock tx t)

theorem Spaced.faultedBy (h : Spaced s t) (tx : List Byte) : Spaced s (faultedBy tx t) := by
  refine (h.asked tx).congr ?_ ?_ ?_ ?_ <;> simp [Machine.faultedBy, finish, bracketed]

/-- The clock goes on (R116). -/
theorem Spaced.sampled (h : Spaced s t) : Spaced s ((takeSample t).record [.sample (clockSample t)]) where
  cfg := by simpa using h.cfg
  interval := by simpa using h.interval
  last := by simpa using BitVec.le_trans h.last (clock_le_clockSample t)
  moved := by simpa using h.moved

/-- An expired sample becomes WD_LAST (R92). -/
theorem Spaced.expired (h : Spaced s t) (hx : expired t (clockSample t) = true) :
    Spaced s (((takeSample t).record [.sample (clockSample t)]).setLast (clockSample t)) where
  cfg := by simpa using h.cfg
  interval := by simpa using h.interval
  last := by simp
  moved := by
    right
    have hle : t.wdLast ≤ clockSample t := BitVec.le_trans h.last (clock_le_clockSample t)
    have hstep := (interval_le_sub_iff hle).mp (of_decide_eq_true hx)
    rw [h.interval] at hstep
    show _ ≤ (clockSample t).toNat
    obtain hm | hm := h.moved
    · rwa [hm] at hstep
    · omega

/-- Whatever an instruction but WD_SET_INTERVAL does on its way, an expired sample is all that becomes WD_LAST. -/
theorem spaced_closed (hi : ¬ setsInterval i) (s : State) :
    CommandClosed i s.cfg (fun _ => True) (Spaced s) (Spaced s) where
  begins _ h := h.congr rfl rfl rfl rfl
  struck _ h _ := h
  reply tx _ _ _ _ _ _ h := (h.asked tx).congr rfl rfl rfl rfl
  fail tx _ _ h := h.faultedBy tx
  never tx _ _ h := (h.asked tx).congr rfl rfl rfl rfl
  sample _ h := h.sampled
  sleep _ h := h.congr rfl rfl rfl rfl
  tmp _ _ h := h.congr rfl rfl rfl rfl
  sum _ _ h := h.congr rfl rfl rfl rfl
  count _ _ h := h.congr rfl rfl rfl rfl
  now _ _ h := h.congr rfl rfl rfl rfl
  same _ h := h.cfg
  okRead _ := trivial
  okWrite _ _ _ _ := trivial
  okRac _ _ _ := trivial
  okRom _ := trivial
  run _ _ _ h := h.congr rfl rfl rfl rfl
  interval hset := absurd hset hi
  expiry _ _ h hx := h.expired hx
  restart hset := absurd hset hi
  notWritable _ _ _ h _ _ := h.congr rfl rfl rfl rfl
  outOfRange _ _ h := h.congr rfl rfl rfl rfl

/-- An instruction that moves WD_LAST without setting a new interval moves it at least WD_INTERVAL on (R103 (a)). -/
theorem exec_spaced (hs : s.wdLast ≤ s.env.clock) (hi : ¬ setsInterval i) (he : exec i s = .next t) : Spaced s t := by
  have h : Spaced s s := ⟨rfl, rfl, hs, .inl rfl⟩
  refine exec_leaves (spaced_closed hi s) (P := Spaced s) ?_ he
  exact {
    start _ := h.congr rfl rfl rfl rfl
    done _ _ _ _ h := h.congr rfl rfl rfl rfl
    sent _ _ h := h.congr rfl rfl rfl rfl
    early _ h := h
    told _ _ _ _ _ := h.congr rfl rfl rfl rfl
    unheeded _ _ := h
    response _ _ _ _ _ _ _ _ := h.congr rfl rfl rfl rfl }

/-! #### The expiries among clock samples -/

/-- The clock samples of a run of checks that find expiry, from WD_LAST before the run (R91, R92). -/
def expiries (interval : U32) : U64 → List U64 → List U64
  | _, [] => []
  | last, c :: cs =>
    if interval.setWidth 64 ≤ c - last then c :: expiries interval c cs else expiries interval last cs

/-- One sample more, on what the state before it holds. -/
theorem expiries_cons_expired (s : State) (c : U64) (cs : List U64) :
    expiries s.wdInterval s.wdLast (c :: cs)
      = (if expired s c then [c] else []) ++ expiries s.wdInterval (if expired s c then c else s.wdLast) cs := by
  by_cases hx : s.wdInterval.setWidth 64 ≤ c - s.wdLast <;> simp [expiries, expired, hx]

/-- The expiries among samples that do not go back lie an interval apart, and from WD_LAST before them (R103 (a)). -/
theorem expiries_spaced (h : (last :: cs).Pairwise (· ≤ ·)) :
    (last :: expiries interval last cs).Pairwise fun a b => a.toNat + interval.toNat ≤ b.toNat := by
  induction cs generalizing last with
  | nil => exact List.pairwise_singleton _ _
  | cons c cs ih =>
    obtain ⟨hlast, hcs⟩ := List.pairwise_cons.mp h
    rw [expiries]
    split
    case isTrue hx =>
      have hstep := (interval_le_sub_iff (hlast c List.mem_cons_self)).mp hx
      have hrest := ih hcs
      refine List.pairwise_cons.mpr ⟨fun x hx => ?_, hrest⟩
      rcases List.mem_cons.mp hx with rfl | hx
      · exact hstep
      · have := (List.pairwise_cons.mp hrest).1 x hx
        omega
    case isFalse =>
      exact ih (List.pairwise_cons.mpr ⟨fun x hx => hlast x (List.mem_cons_of_mem c hx), (List.pairwise_cons.mp hcs).2⟩)

/-- WD_LAST lies before the expiries (R103 (a)). -/
theorem le_of_mem_expiries {x : U64} (h : (last :: cs).Pairwise (· ≤ ·)) (hx : x ∈ last :: expiries interval last cs) :
    last.toNat ≤ x.toNat := by
  rcases List.mem_cons.mp hx with rfl | hx
  · exact Nat.le_refl _
  · have := (List.pairwise_cons.mp (expiries_spaced h)).1 x hx
    omega

/-- Samples that follow `prev` and each other by at most `gap`, none of them before WD_LAST, `prev` less than the interval after it: the
next expiry comes less than the interval plus `gap` after WD_LAST and after each expiry, if a sample comes that late (R103 (b)). -/
theorem next_expiry {gap : Nat} {prev : U64} (hpos : 0 < interval.toNat) (hprev : prev.toNat < last.toNat + interval.toNat)
    (hgap : (prev :: cs).IsChain fun a b => b.toNat ≤ a.toNat + gap) (h : (last :: cs).Pairwise (· ≤ ·)) :
    ∀ x ∈ last :: expiries interval last cs, (∃ d ∈ cs, x.toNat + interval.toNat ≤ d.toNat) →
      ∃ y ∈ expiries interval last cs,
        x.toNat + interval.toNat ≤ y.toNat ∧ y.toNat < x.toNat + interval.toNat + gap := by
  induction cs generalizing last prev with
  | nil => simp
  | cons c cs ih =>
    intro x hx ⟨d, hd, hlate⟩
    obtain ⟨hlast, hcs⟩ := List.pairwise_cons.mp h
    obtain ⟨hc, hgaps⟩ := List.isChain_cons_cons.mp hgap
    have htest := interval_le_sub_iff (interval := interval) (hlast c List.mem_cons_self)
    by_cases hexpired : interval.setWidth 64 ≤ c - last
    · rw [expiries, if_pos hexpired] at hx ⊢
      rcases List.mem_cons.mp hx with rfl | hx
      · exact ⟨c, List.mem_cons_self, htest.mp hexpired, by omega⟩
      · have hcx := le_of_mem_expiries hcs hx
        have hd : d ∈ cs := (List.mem_cons.mp hd).resolve_left fun hdc => by subst hdc; omega
        obtain ⟨y, hy, hnext⟩ := ih (by omega) hgaps hcs x hx ⟨d, hd, hlate⟩
        exact ⟨y, List.mem_cons_of_mem c hy, hnext⟩
    · rw [expiries, if_neg hexpired] at hx ⊢
      have hearly := mt htest.mpr hexpired
      have hlast' : (last :: cs).Pairwise (· ≤ ·) := h.sublist (.cons_cons last (List.sublist_cons_self c cs))
      have hlx := le_of_mem_expiries hlast' hx
      have hd : d ∈ cs := (List.mem_cons.mp hd).resolve_left fun hdc => by subst hdc; omega
      exact ih (by omega) hgaps hlast' x hx ⟨d, hd, hlate⟩

/-! #### What a MAINTAIN shows of its checks -/

/-- The clock samples `cs` and those of refreshes `rs` that checks from `s` on put on the port: the samples do not go back, a refresh goes
out at expiries alone, and at each of them when nothing but the device can keep it back (R91–R93). -/
structure Watched (s : State) (cs rs : List U64) : Prop where
  rising : (s.env.clock :: cs).Pairwise (· ≤ ·)
  refreshed : rs.Sublist (expiries s.wdInterval s.wdLast cs)
  every : cfgOk s.cfg = true → s.env.abandonAfter = none → s.wdRun = true → rs = expiries s.wdInterval s.wdLast cs

theorem Watched.nil (s : State) : Watched s [] [] :=
  ⟨List.pairwise_singleton _ _, List.nil_sublist _, fun _ _ _ => rfl⟩

/-- One check from `s` to `t`, for every answer of the device: its clock sample `c` and the events it adds, and what it leaves for the
checks after it (R92). -/
structure Checked (c : U64) (es : List Event) (s t : State) : Prop where
  trace : t.env.trace = s.env.trace ++ es
  sample : samplesOf es = [c]
  later : s.env.clock ≤ c
  refreshed : (refreshedAt (trigReg s.cfg) es).Sublist (if expired s c && s.wdRun then [c] else [])
  due : cfgOk s.cfg = true → s.env.abandonAfter = none →
    refreshedAt (trigReg s.cfg) es = if expired s c && s.wdRun then [c] else []
  clock : t.env.clock = c
  last : t.wdLast = if expired s c then c else s.wdLast
  interval : t.wdInterval = s.wdInterval
  run : t.wdRun = s.wdRun
  cfg : t.cfg = s.cfg
  ready : s.env.abandonAfter = none → t.env.abandonAfter = none

/-- A check made, and what the checks after it show from where it ends. -/
theorem Checked.watched_cons {es : List Event} {rs : List U64} (hk : Checked c es s t) (h : Watched t cs rs) :
    Watched s (c :: cs) (refreshedAt (trigReg s.cfg) es ++ rs) := by
  obtain ⟨hrising, hsub, hevery⟩ := h
  rw [hk.clock] at hrising
  rw [hk.interval, hk.last] at hsub hevery
  rw [hk.cfg, hk.run] at hevery
  refine ⟨?_, ?_, fun hc ha hr => ?_⟩
  · refine List.pairwise_cons.mpr ⟨fun x hx => ?_, hrising⟩
    rcases List.mem_cons.mp hx with rfl | hx
    · exact hk.later
    · exact BitVec.le_trans hk.later ((List.pairwise_cons.mp hrising).1 x hx)
  · rw [expiries_cons_expired]
    refine (hk.refreshed.trans ?_).append hsub
    cases expired s c <;> cases s.wdRun <;> simp
  · rw [expiries_cons_expired, hk.due hc ha, hevery hc (hk.ready ha) hr, hr, Bool.and_true]

/-- A check that makes no refresh, from where it decides. -/
theorem checked_quiet {last : U64} (hlast : last = if expired s (clockSample (begun s)) then clockSample (begun s) else s.wdLast)
    (hq : (expired s (clockSample (begun s)) && s.wdRun) = false) :
    Checked (clockSample (begun s)) [.sample (clockSample (begun s))] s ((checkStart s).setLast last) where
  trace := by simp
  sample := rfl
  later := clock_le_checkStart s
  refreshed := List.nil_sublist _
  due _ _ := by rw [hq]; rfl
  clock := by simp
  last := hlast
  interval := by simp
  run := by simp
  cfg := by simp
  ready := by simp +contextual

/-- A check that owes a refresh, after what its refresh did. -/
theorem Refreshes.checked (hx : expired s (clockSample (begun s)) = true) (hr : s.wdRun = true)
    (h : Refreshes ((checkStart s).setLast (clockSample (begun s))) t) :
    ∃ es, Checked (clockSample (begun s)) es s t := by
  obtain ⟨es, hadds, hquiet, hread⟩ := h
  refine ⟨.sample (clockSample (begun s)) :: es, ?_⟩
  have hrefresh : refreshedAt (trigReg s.cfg) (.sample (clockSample (begun s)) :: es) = [clockSample (begun s)]
      ∨ refreshedAt (trigReg s.cfg) (.sample (clockSample (begun s)) :: es) = []
        ∧ ¬ (cfgOk s.cfg = true ∧ s.env.abandonAfter = none) := by
    obtain ⟨m, r, rest, rfl⟩ | ⟨hnone, hkept⟩ := hread
    · have hrest : samplesOf rest = [] := by simpa [samplesOf] using hquiet
      exact .inl (by simpa [refreshedAt] using refreshedAt_refresh (trigReg s.cfg) (clockSample (begun s)) [] hrest)
    · refine .inr ⟨?_, fun h => hkept (by simp [h])⟩
      rcases hnone with rfl | ⟨r, rfl⟩ <;> rfl
  exact {
    trace := by rw [hadds.trace]; simp
    sample := by rw [samplesOf_sample, hquiet]
    later := clock_le_checkStart s
    refreshed := by
      rw [hx, hr]
      rcases hrefresh with h | ⟨h, -⟩ <;> simp [h]
    due := fun hc ha => by
      rw [hx, hr]
      rcases hrefresh with h | ⟨-, h⟩
      · exact h
      · exact absurd ⟨hc, ha⟩ h
    clock := by rw [hadds.clock]; simp
    last := by rw [hadds.last, hx]; rfl
    interval := by rw [hadds.interval]; simp
    run := by rw [hadds.run]; simp
    cfg := by rw [hadds.cfg]; simp
    ready := fun ha => hadds.ready (by simp [ha]) }

/-- Everything a check can do: the host's reset strikes before it, or it is made, whether it then runs on or ends the command. -/
theorem wdCheckBody_checked (s : State) :
    Meets (wdCheckBody s) (fun t => ∃ c es, Checked c es s t) (fun t => t = s ∨ ∃ c es, Checked c es s t) := by
  rcases wdCheckBody_cases s with ⟨-, h⟩ | h
  · rw [h]
    exact .inl rfl
  have htest : expired (checkStart s) (clockSample (begun s)) = expired s (clockSample (begun s)) := expired_checkStart s
  rw [h, checkAt, htest, checkStart_wdRun]
  cases hx : expired s (clockSample (begun s)) with
  | false =>
    have hkept : (checkStart s).setLast s.wdLast = checkStart s := congrArg (checkStart s).setLast (checkStart_wdLast s).symm
    have hk := checked_quiet (s := s) (last := s.wdLast) (by rw [hx]; rfl) (by rw [hx, Bool.false_and])
    rw [hkept] at hk
    exact ⟨_, _, hk⟩
  | true =>
    cases hr : s.wdRun with
    | false => exact ⟨_, _, checked_quiet (by rw [hx]; rfl) (by rw [hr, Bool.and_false])⟩
    | true =>
      refine meets_andThen ((doRefresh_adds _).imp (fun t ht => ?_) fun t ht => .inr ⟨_, ht.checked hx hr⟩) fun _ t ht => ht
      exact ⟨_, ht.checked hx hr⟩

/-- A sleep stands between a check and the next one, so no refresh is seen across it. -/
theorem refreshedAt_append_sleep (trig : Addr) (es fs : List Event) :
    refreshedAt trig (es ++ .sleep :: fs) = refreshedAt trig es ++ refreshedAt trig fs := by
  induction es with
  | nil => rfl
  | cons e es ih =>
    have hsample : refreshSample trig e (es ++ .sleep :: fs) = refreshSample trig e es := by
      rcases es with _ | ⟨x, _ | ⟨y, z⟩⟩
      · cases e <;> rfl
      · cases e <;> cases x <;> rfl
      · cases e <;> cases x <;> cases y <;> rfl
    rw [List.cons_append, refreshedAt, refreshedAt, hsample, ih, List.append_assoc]

/-- What a MAINTAIN from `s` to `t` has shown on the port. -/
def Shown (s t : State) : Prop :=
  ∃ es, t.env.trace = s.env.trace ++ es ∧ Watched s (samplesOf es) (refreshedAt (trigReg s.cfg) es)

theorem Shown.refl (s : State) : Shown s s :=
  ⟨[], by simp, .nil s⟩

/-- A check and its sleep, and the iterations after them. -/
theorem Checked.shown_cons {es : List Event} {n : U32} (hk : Checked c es s t)
    (h : Shown (((begun t).record [.sleep]).setI n) u) : Shown s u := by
  obtain ⟨fs, htrace, hrising, hrefreshed, hevery⟩ := h
  have hw : Watched t (samplesOf fs) (refreshedAt (trigReg s.cfg) fs) := by
    rw [← hk.cfg]
    exact ⟨hrising, hrefreshed, fun hc ha => hevery hc (by simp [begun, ha])⟩
  refine ⟨es ++ .sleep :: fs, ?_, ?_⟩
  · rw [htrace, setI_env, record_env_trace, begun, hk.trace]
    simp
  · rw [samplesOf_append, hk.sample, refreshedAt_append_sleep]
    exact hk.watched_cons hw

/-- A check after which the command ends. -/
theorem Checked.shown {es : List Event} (hk : Checked c es s t) : Shown s t := by
  refine ⟨es, hk.trace, ?_⟩
  have hw := hk.watched_cons (.nil t)
  rwa [List.append_nil, ← hk.sample] at hw

/-- The iterations of a MAINTAIN, whatever the device answers and wherever the host's reset strikes. -/
theorem maintainLoop_shown (n : Nat) (s : State) : Meets (maintainLoop n s) (Shown s) (Shown s) := by
  induction n generalizing s with
  | zero => exact .refl s
  | succ n ih =>
    refine meets_andThen ((wdCheckBody_checked s).imp (fun _ => id) ?_) ?_
    · rintro t (rfl | ⟨c, es, hk⟩)
      · exact .refl t
      · exact hk.shown
    · rintro _ t ⟨c, es, hk⟩
      rcases primitive_cases t with hp | ⟨hp, -⟩
      · rw [sleep1, hp, andThen_run, andThen_run]
        exact (ih _).imp (fun _ h => hk.shown_cons h) fun _ h => hk.shown_cons h
      · rw [sleep1, hp, andThen_ended, andThen_ended]
        exact hk.shown

/-- A result adds no sample and no refresh. -/
theorem Shown.completed (h : Shown s t) (status : Status) (d : U32) (f : Bool) : Shown s (completed status d f t) := by
  obtain ⟨es, htrace, hw⟩ := h
  refine ⟨es ++ [.result ⟨status, d, f⟩], ?_, ?_⟩
  · rw [Machine.completed, htrace, List.append_assoc]
  · rw [samplesOf_append, refreshedAt_result]
    simpa [samplesOf] using hw

/-- MAINTAIN, whatever the device answers and wherever the host's reset strikes. -/
theorem exec_maintain_shown (arg : U32) (s : State) : ∃ t, exec (.maintain arg) s = .next t ∧ Shown s t := by
  refine ⟨_, rfl, runCommand_meets (fun _ => (Shown.refl s).completed _ _ _) fun _ => ?_⟩
  have hstart (t : State) (h : Shown ((s.setBusy true).setI 0) t) : Shown s t := by
    obtain ⟨es, htrace, hrising, hrefreshed, hevery⟩ := h
    exact ⟨es, htrace, hrising, hrefreshed, hevery⟩
  exact meets_andThen ((maintainLoop_shown _ _).imp hstart hstart) fun _ t ht d f => ht.completed _ d f

/-- The samples do not go back behind WD_LAST either. -/
theorem Watched.rising_from_last {rs : List U64} (h : Watched s cs rs) (hs : s.wdLast ≤ s.env.clock) :
    (s.wdLast :: cs).Pairwise (· ≤ ·) := by
  obtain ⟨hclock, hcs⟩ := List.pairwise_cons.mp h.rising
  exact List.pairwise_cons.mpr ⟨fun x hx => BitVec.le_trans hs (hclock x hx), hcs⟩

/-- Settles O29: only an expired sample becomes WD_LAST, and refreshes go out at expiries alone, which lie an interval apart. -/
theorem expiriesLieAnIntervalApart : Obligations.ExpiriesLieAnIntervalApart := by
  intro s hs
  refine ⟨fun i t hi he hmoved => ?_, fun arg => ?_⟩
  · exact (exec_spaced hs (fun ⟨arg, harg⟩ => hi arg harg) he).moved.resolve_left hmoved
  · obtain ⟨t, he, es, htrace, hw⟩ := exec_maintain_shown arg s
    exact ⟨t, es, he, htrace, (expiries_spaced (hw.rising_from_last hs)).sublist (hw.refreshed.cons_cons _)⟩

/-- Settles O30: while RUNNING a refresh goes out at every expiry, and the next expiry comes in time. -/
theorem nextRefreshComesWithinIntervalAndSpacing : Obligations.NextRefreshComesWithinIntervalAndSpacing := by
  intro arg s ⟨hf, ha⟩ hc hr hpos hs
  obtain ⟨t, he, es, htrace, hw⟩ := exec_maintain_shown arg s
  refine ⟨t, es, he, htrace, fun gap hgap => ?_⟩
  have hpos : 0 < s.wdInterval.toNat := Nat.pos_of_ne_zero fun h => hpos (BitVec.eq_of_toNat_eq h)
  rw [hw.every hc ha hr]
  exact next_expiry hpos (by omega) hgap (hw.rising_from_last hs)

end Sys2Proof.Machine

/-! ### Refusals: NOT_WRITABLE (R106, R122) and the FAULTED block (R111, R115, log 9, log 10) -/

namespace Sys2Proof.Machine

variable {i : Instr} {s t : State}

/-- RES is no NOT_WRITABLE. -/
def Unrefused (s : State) : Prop :=
  s.res.status ≠ .notWritable

theorem unrefused_completed {status : Status} (h : status ≠ .notWritable) (d : U32) (f : Bool) (s : State) :
    Unrefused (completed status d f s) := h

/-- RES is as it was while a sequence goes on. -/
theorem Going.unrefused (h : Going s t) (hs : Unrefused s) : Unrefused t := by
  rwa [Unrefused, h.res]

/-- An instruction whose checked addresses are all writable ends early at a strike, at a failed or hung exchange or at an operand out
of range, none of which writes NOT_WRITABLE. -/
theorem unrefused_closed (hs : Unrefused s) (hg : ∀ a, guards s.cfg i a → writable a = true) :
    CommandClosed i s.cfg (· ≠ []) (Going s) Unrefused where
  __ := ending_closed i s
  struck _ h _ := h.unrefused hs
  fail _ _ _ _ := unrefused_completed (by decide) _ _ _
  never tx t _ h := by
    have hres : (hung tx (askDevice tx t)).res = t.res := askDevice_res tx t
    rw [Unrefused, hres]
    exact h.unrefused hs
  notWritable _ a ha _ _ hw := by simp [hg a ha] at hw
  outOfRange _ _ _ := unrefused_completed (by decide) _ _ _

/-- An instruction whose checked addresses are all writable is not refused. -/
theorem exec_unrefused (hs : Unrefused s) (hg : ∀ a, guards s.cfg i a → writable a = true) (he : exec i s = .next t) :
    Unrefused t := by
  have hclosed := unrefused_closed hs hg
  have hstart : Going s (s.setBusy true) := by constructor <;> simp
  cases hi : isFrame i with
  | false =>
    exact exec_command_leaves hclosed hi (fun _ => hstart) (fun t d f _ => unrefused_completed (by decide) d f t) (fun _ ht => ht)
      (fun _ => unrefused_completed (by decide) _ _ s) (fun d f => unrefused_completed (by decide) d f s)
      (fun d => unrefused_completed (by decide) d _ s) he
  | true =>
    exact exec_frame_leaves hclosed hi (fun _ => hstart) (fun _ ht => ht.unrefused hs) (fun _ ht => ht) (fun _ => hs)
      (fun _ _ _ _ _ _ _ => hs) he

/-- Settles O33: R122 makes every register writable that an instruction other than the three puts through its check. -/
theorem watchdogCommandsNeverEndNotWritable : Obligations.WatchdogCommandsNeverEndNotWritable := by
  intro i s t hc hs hwrite hmodify hframe he
  exact exec_unrefused hs (fun a ha => guards_writable hc ha hwrite hmodify hframe) he

/-- A FAULTED block sends no frame presented by itself (R115, log 9). -/
theorem runFrame_faulted {body : State → Seq U32} (hf : s.faulted = true) : runFrame body s = s :=
  if_pos hf

/-- A FAULTED block takes in no response (R115, log 10). -/
theorem runResponse_faulted (hf : s.faulted = true) (rx : List Byte) (gsb : Byte) (data : U32) :
    runResponse rx gsb data s = s :=
  if_pos hf

/-- The commands under the common preamble are refused while FAULTED (R111). -/
theorem exec_refusedWhenFaulted (hf : s.faulted = true) (hi : refusedWhenFaulted i = true) :
    exec i s = .next (completed .faulted 0 false s) := by
  cases i with
  | write | read | modify | rac | racList | readRom | wdCheck | wdRefresh | wdSetInterval | wdEnable | wdDisable | modeSet
  | maintain | readAvg => exact congrArg _ (runCommand_faulted hf)
  | isWritable | getGsb | reserved | fWrite | fRead | fReadAndClear | fDeviceInfo | fDeviceInfo2 | fResponse4 | fResponse2 =>
    cases hi

/-- Settles O34: the preamble refuses, and the three commands without it do not read FAULTED. -/
theorem faultedBlockRefusesCommands : Obligations.FaultedBlockRefusesCommands :=
  fun _ _ hf => ⟨exec_refusedWhenFaulted hf, fun _ => rfl, rfl, fun _ => rfl⟩

/-- Settles O35: request forms and response forms both ask for FAULTED first. -/
theorem faultedBlockIgnoresFrames : Obligations.FaultedBlockIgnoresFrames := by
  intro i s hf hi
  cases i with
  | fWrite | fRead | fReadAndClear | fDeviceInfo | fDeviceInfo2 => exact congrArg _ (runFrame_faulted hf)
  | fResponse4 | fResponse2 => exact congrArg _ (runResponse_faulted hf _ _ _)
  | write | read | modify | rac | racList | readRom | isWritable | getGsb | wdCheck | wdRefresh | wdSetInterval | wdEnable
  | wdDisable | modeSet | maintain | readAvg | reserved => cases hi

end Sys2Proof.Machine

/-! ### A reset that strikes before the first primitive (R121, R136, log 8) -/

namespace Sys2Proof.Machine

variable {s : State}

theorem xfer_struck (op : Op) (a : Addr) (v : U32) (h : s.env.abandonAfter = some 0) : xfer op a v s = .ended s := by
  rw [xfer, transact, primitive_struck h, andThen_ended]

/-- Settles O41: the strike ends the command at its first primitive, busy, and the reset move starts anew whatever was going on. -/
theorem resetStrikeAbandonsTheCommand : Obligations.ResetStrikeAbandonsTheCommand := by
  intro reg s hf hstrike
  have hdue : (s.setBusy true).env.abandonAfter = some 0 := hstrike
  refine ⟨congrArg _ (runCommand_ended hf ?_), congrArg _ (runCommand_ended hf ?_), fun cfg more hp hc => ?_⟩
  · rw [xfer_struck .read reg 0 hdue, andThen_ended]
    rfl
  · rw [wdCheckBody_struck hdue, andThen_ended]
    rfl
  · have hpending : (s.setBusy true).env.pending = .reset cfg :: more := hp
    exact ⟨_, step_reset hpending hc, cleanStart_hostReset hc _, rfl, takeSample_pending _, rfl, rfl, rfl⟩

end Sys2Proof.Machine
